-- ==== Sys2Proof/Config.lean ====
section
/-! DEFINITION. What is fixed for this hardware and what is left free.

The parameters of 00_scope.md R5 to R13: widths and slot number are named constants (log 9), RATE, GUARD and LIFE are OPEN
and stand here as constants without a body, brought into their legal range (log 8). The free choices of the environment,
which agent steps next and what the host issues next (R19, R58, R182), are constants without a body too (log 1, 2).
-/

namespace Sys2Proof.Config

/-! ## Widths and slot number -/

/-- `W1`, width of the Hardware Tick Register (R5). -/
abbrev w1 : Nat := 16

/-- `W2`, width of the Overflow Counter (R6). -/
abbrev w2 : Nat := 32

/-- `WX = W1 + W2`, width of a value a read can produce (R7). -/
abbrev wx : Nat := w1 + w2

/-- `WE`, width of CUR, RES, the deadline slots and the deadline arithmetic (R8). -/
abbrev we : Nat := 64

/-- `WS`, width of the seconds operand (R9). -/
abbrev ws : Nat := 32

/-- `NJ`, number of deadline slots (R12). -/
abbrev nj : Nat := 2

/-! ## Open parameters -/

/-- Unconstrained draw behind `rate`. -/
opaque rateDraw : Nat

/-- Unconstrained draw behind `guardTicks`. -/
opaque guardDraw : Nat

/-- Unconstrained draw behind `life`. -/
opaque lifeDraw : Nat

/-- The largest rate constant WF5 admits at these widths (R14). -/
def rateMax : Nat := (2 ^ we - 2 ^ wx) / (2 ^ ws - 1)

/-- `RATE`, ticks per second (R10): any value from 1 to `rateMax`, nothing more is known of it (log 8). -/
def rate : Nat := rateDraw % rateMax + 1

/-- `GUARD`, the guard threshold (R11): any value from 1 to `2^(W1-1)`, nothing more is known of it (log 8). -/
def guardTicks : Nat := guardDraw % 2 ^ (w1 - 1) + 1

/-- `LIFE`, the service life in seconds (R13): any value WF6 admits beside `rate` (log 8). No step reads it. -/
def life : Nat := lifeDraw % ((2 ^ wx - 1) / rate + 1)

/-! ## A configuration as a record -/

/-- The parameters of R5 to R13 as one record, to state R14 of any configuration. -/
structure Params where
  w1 : Nat
  w2 : Nat
  we : Nat
  ws : Nat
  rate : Nat
  guardTicks : Nat
  nj : Nat
  life : Nat
  deriving DecidableEq, Repr

/-- This hardware's configuration. -/
def hw : Params :=
  { w1 := w1, w2 := w2, we := we, ws := ws, rate := rate, guardTicks := guardTicks, nj := nj, life := life }

/-- The identity string `XTC-W1.W2.WE-NJ` of R2. -/
def identity (p : Params) : String :=
  "XTC-" ++ toString p.w1 ++ "." ++ toString p.w2 ++ "." ++ toString p.we ++ "-" ++ toString p.nj

/-! ## The environment's vocabulary -/

/-- The three agents of R19. -/
inductive Agent where
  | tick
  | irq
  | host
  deriving DecidableEq, Repr, Inhabited

/-- Direction of a port access: `dir` of R72, 1 for a write and 0 for a read. -/
inductive Dir where
  | read
  | write
  deriving DecidableEq, Repr, Inhabited

/-- A host transaction `(dir, p, data)` of R72. The data lines are as wide as the widest writable port (WS bits);
a write to CMD carries its 8-bit command word in bits 7:0, and a read carries nothing (log 11). -/
structure Access where
  dir : Dir
  port : BitVec 5
  data : BitVec ws
  deriving DecidableEq, Repr, Inhabited

/-- What the HOST agent can do while the sequencer is idle (R150): a port access, the environment action SETIE (R159), or the
HALT that ends the host's program (30_encoding.md R81, 70_reset_and_hazards.md R211; log 22). -/
inductive HostAct where
  | access (a : Access)
  | setie (b : Bool)
  | halt
  deriving DecidableEq, Repr, Inhabited

/-! ## Free choices -/

/-- FREE VALUE: which agent the environment lets step at the n-th draw (R58, R182; log 1). -/
opaque freeAgent : Nat → Agent

/-- FREE VALUE: what the host issues at the n-th draw (R19; log 2). -/
opaque freeHostAct : Nat → HostAct

end Sys2Proof.Config
end

