-- ==== Sys2Proof/Word.lean ====
section
/-! DEFINITION. The word types of the block (10_state.md, 30_encoding.md) and the fault codes' names (60_exceptions.md). -/

namespace Sys2Proof

/-- A value of HTR or LOW (R20, R35). -/
abbrev Tick : Type := BitVec Config.w1

/-- A value of OVF or HIGH (R23, R34). -/
abbrev Overflow : Type := BitVec Config.w2

/-- An Extended Tick Count or a Deadline in its register (R8, R26, R28, R29). -/
abbrev Extended : Type := BitVec Config.we

/-- A seconds operand (R9, R27). -/
abbrev Seconds : Type := BitVec Config.ws

/-- A command word (R70). -/
abbrev CmdWord : Type := BitVec 8

/-- The 4-bit slot field of a command word or of a port selector (R70, R72). -/
abbrev Slot : Type := BitVec 4

/-- The fault codes 1 to 7 of R170 by name. -/
inductive FaultCode where
  /-- 1: reserved `op`, nonzero `j` where it must be 0, or `j >= NJ` (R172). -/
  | illegalCmd
  /-- 2: the host wrote 0x70 (R173). -/
  | wrapincFromHost
  /-- 3: INIT when INITED = 1 (R174). -/
  | reinit
  /-- 4: INIT when IE = 1 (R175). -/
  | initWithIe
  /-- 5: N1 before INIT, or OVF read while it has no value (R176). -/
  | preInit
  /-- 6: an element read while it has no value (R178). -/
  | unwrittenRead
  /-- 7: a reserved selector or port (R177). -/
  | badPort
  deriving DecidableEq, Repr

end Sys2Proof
end

