-- ==== Sys2Proof/Syntax.lean ====
section
/-! DEFINITION. The instructions: one constructor per row of spec/opcode_table.json. -/

namespace Sys2Proof

/-- The 14 rows of the opcode table: seven command words (R71) and seven port accesses (R72). A command's slot operand is the
4-bit field of its word (R74); the seconds operand of DTT and ARM is register SEC, not part of the instruction. -/
inductive Instr where
  /-- INIT (R105). -/
  | init
  /-- NOW (R106). -/
  | now
  /-- DTT (R132). -/
  | dtt
  /-- ARM j (R133). -/
  | arm (j : Slot)
  /-- ISDUE j (R137). -/
  | isdue (j : Slot)
  /-- CANCEL j (R138). -/
  | cancel (j : Slot)
  /-- WRAPINC, the IRQ step (R102). -/
  | wrapinc
  /-- WRCMD c (R151). -/
  | wrcmd (c : CmdWord)
  /-- WRSEC v (R152). -/
  | wrsec (v : Seconds)
  /-- RDSEC (R153). -/
  | rdsec
  /-- RDCUR (R154). -/
  | rdcur
  /-- RDRES (R155). -/
  | rdres
  /-- RDSTAT (R156). -/
  | rdstat
  /-- RDD j (R157). -/
  | rdd (j : Slot)
  deriving DecidableEq, Repr

end Sys2Proof
end

