-- ==== Sys2Proof/WellFormed.lean ====
section
/-! DEFINITION. What is well formed: an instruction (30_encoding.md R74, 42_hostport.md R157) and a configuration
(00_scope.md R14). -/

namespace Sys2Proof

/-- A slot number names a register: `j < NJ` (R38, R74). -/
def slotOk (j : Slot) : Bool := decide (j.toNat < Config.nj)

/-- An instruction the encoding can spell as itself: its slot, if it has one, is below NJ (R74, R157). -/
def Instr.wellFormed : Instr → Bool
  | .arm j => slotOk j
  | .isdue j => slotOk j
  | .cancel j => slotOk j
  | .rdd j => slotOk j
  | .init => true
  | .now => true
  | .dtt => true
  | .wrapinc => true
  | .wrcmd _ => true
  | .wrsec _ => true
  | .rdsec => true
  | .rdcur => true
  | .rdres => true
  | .rdstat => true

namespace Config

/-- The six conditions of R14 by name. -/
inductive WfRule where
  | wf1
  | wf2
  | wf3
  | wf4
  | wf5
  | wf6
  deriving DecidableEq, Repr

/-- `WX` of a configuration (R7). -/
def Params.wx (p : Params) : Nat := p.w1 + p.w2

/-- The condition each name stands for (R14). -/
def meets (p : Params) : WfRule → Bool
  | .wf1 => decide (2 ≤ p.w1) && decide (1 ≤ p.w2) && decide (p.w1 + p.w2 ≤ p.we)
  | .wf2 => decide (1 ≤ p.guardTicks) && decide (p.guardTicks ≤ 2 ^ (p.w1 - 1))
  | .wf3 => decide (1 ≤ p.rate)
  | .wf4 => decide (1 ≤ p.nj) && decide (p.nj ≤ 16)
  | .wf5 => decide (2 ^ p.wx - 1 + (2 ^ p.ws - 1) * p.rate < 2 ^ p.we)
  | .wf6 => decide (p.rate * p.life < 2 ^ p.wx)

/-- The conditions a configuration breaks, in order. -/
def broken (p : Params) : List WfRule :=
  [WfRule.wf1, .wf2, .wf3, .wf4, .wf5, .wf6].filter fun r => !meets p r

/-- "a model refuses a configuration that breaks one" (R14): the configuration, or the names of what it breaks. -/
def accepted (p : Params) : Except (List WfRule) Params :=
  if broken p = [] then .ok p else .error (broken p)

end Config

end Sys2Proof
end

