-- ==== Sys2Proof/Decode.lean ====
section
/-! DEFINITION. The decoder and after it the encoder (30_encoding.md).

An encoded instruction says who sends what: the host writes a command word to port CMD, the interrupt source sends its one
word 0x70, or the host makes a port access. Every word and every access decodes, to an instruction or to the fault it raises
(R76, R77).
-/

namespace Sys2Proof

/-- The sendings an instruction can be spelled by. -/
inductive Encoded where
  /-- A command word written to port CMD by the host (R70). -/
  | cmd (c : CmdWord)
  /-- A command word sent by the interrupt source (R75, R102). -/
  | irq (c : CmdWord)
  /-- A host port access (R72). -/
  | port (a : Config.Access)
  deriving DecidableEq, Repr

/-! ## Decoding -/

/-- Field `op = c[7:4]` (R70). -/
def opField (c : CmdWord) : BitVec 4 := c.extractLsb' 4 4

/-- Field `j = c[3:0]` (R70). -/
def slotField (c : CmdWord) : Slot := c.extractLsb' 0 4

/-- A command that takes no slot: its `j` field must be 0000 (R74). -/
def plainCmd (j : Slot) (r : Except FaultCode Instr) : Except FaultCode Instr :=
  if j = 0#4 then r else .error .illegalCmd

/-- A command with a slot operand: `j < slots` or it spells no command (R74). -/
def slotCmd (slots : Nat) (j : Slot) (i : Instr) : Except FaultCode Instr :=
  if j.toNat < slots then .ok i else .error .illegalCmd

/-- `decode(c)` of R76 for a word the host wrote, with NJ as an argument. -/
def decodeCmdWith (slots : Nat) (c : CmdWord) : Except FaultCode Instr :=
  match (opField c).toNat with
  | 1 => plainCmd (slotField c) (.ok .init)
  | 2 => plainCmd (slotField c) (.ok .now)
  | 3 => plainCmd (slotField c) (.ok .dtt)
  | 4 => slotCmd slots (slotField c) (.arm (slotField c))
  | 5 => slotCmd slots (slotField c) (.isdue (slotField c))
  | 6 => slotCmd slots (slotField c) (.cancel (slotField c))
  | 7 => plainCmd (slotField c) (.error .wrapincFromHost)
  | _ => .error .illegalCmd

/-- `decode(c)` of R76 on this hardware. -/
def decodeCmd (c : CmdWord) : Except FaultCode Instr := decodeCmdWith Config.nj c

/-- The interrupt source performs WRAPINC and nothing else (R75, R184); another word from it is rejected (log 14). -/
def decodeIrq (c : CmdWord) : Except FaultCode Instr :=
  if c = 0x70#8 then .ok .wrapinc else .error .illegalCmd

/-- The selectors with `dir = 0` (R72, R77). -/
def decodeRead (slots : Nat) (p : BitVec 5) : Except FaultCode Instr :=
  match p.toNat with
  | 1 => .ok .rdsec
  | 2 => .ok .rdcur
  | 3 => .ok .rdres
  | 4 => .ok .rdstat
  | n => if 16 ≤ n ∧ n - 16 < slots then .ok (.rdd (p.extractLsb' 0 4)) else .error .badPort

/-- The selectors with `dir = 1` (R72, R77). -/
def decodeWrite (p : BitVec 5) (data : BitVec Config.ws) : Except FaultCode Instr :=
  match p.toNat with
  | 0 => .ok (.wrcmd (data.setWidth 8))
  | 1 => .ok (.wrsec data)
  | _ => .error .badPort

/-- Decoding of a host port access (R72, R77, R158), with NJ as an argument. -/
def decodeAccessWith (slots : Nat) (a : Config.Access) : Except FaultCode Instr :=
  match a.dir with
  | .read => decodeRead slots a.port
  | .write => decodeWrite a.port a.data

/-- Decoding of a host port access on this hardware. -/
def decodeAccess (a : Config.Access) : Except FaultCode Instr := decodeAccessWith Config.nj a

/-- The decoder: total, and what spells no instruction is rejected by the fault it raises. -/
def decode : Encoded → Except FaultCode Instr
  | .cmd c => decodeCmd c
  | .irq c => decodeIrq c
  | .port a => decodeAccess a

/-! ## Encoding -/

/-- The command word with operation `op` and slot field `j` (R70). -/
def cmdWord (op : BitVec 4) (j : Slot) : CmdWord := op ++ j

/-- A read access: `dir = 0`, no data. -/
def readPort (p : BitVec 5) : Config.Access := { dir := .read, port := p, data := 0#Config.ws }

/-- A write access: `dir = 1`. -/
def writePort (p : BitVec 5) (v : BitVec Config.ws) : Config.Access := { dir := .write, port := p, data := v }

/-- The host's write of a command word to port CMD (R151). -/
def writeCmd (c : CmdWord) : Config.Access := writePort 0#5 (c.setWidth Config.ws)

/-- The encoder, from the tables of R71, R72 and R79. -/
def encode : Instr → Encoded
  | .init => .cmd (cmdWord 1#4 0#4)
  | .now => .cmd (cmdWord 2#4 0#4)
  | .dtt => .cmd (cmdWord 3#4 0#4)
  | .arm j => .cmd (cmdWord 4#4 j)
  | .isdue j => .cmd (cmdWord 5#4 j)
  | .cancel j => .cmd (cmdWord 6#4 j)
  | .wrapinc => .irq (cmdWord 7#4 0#4)
  | .wrcmd c => .port (writeCmd c)
  | .wrsec v => .port (writePort 1#5 v)
  | .rdsec => .port (readPort 1#5)
  | .rdcur => .port (readPort 2#5)
  | .rdres => .port (readPort 3#5)
  | .rdstat => .port (readPort 4#5)
  | .rdd j => .port (readPort (1#1 ++ j))

/-- The 6-bit selector `{dir, p[4:0]}` of an access (R72). -/
def selector (a : Config.Access) : BitVec 6 :=
  (match a.dir with | .read => 0#1 | .write => 1#1) ++ a.port

/-! ## The opcode table's words -/

/-- The access whose selector is bits 5:0 of `w` and whose data are the bits from 8 up. -/
def selectorAccess (w : Nat) : Config.Access :=
  { dir := if w / 32 % 2 = 1 then .write else .read
    port := BitVec.ofNat 5 w
    data := BitVec.ofNat Config.ws (w / 256) }

/-- What a word of spec/opcode_table.json stands for. The table's two formats overlap as numbers (0x10 is INIT and RDD 0,
0x20 is NOW and WRCMD), so a word given with 8 bits is read as a command word where it spells a command and as a selector
otherwise (log 15). A word of another length is a selector with its data. -/
def tableWord (nbits w : Nat) : Option Encoded :=
  if nbits = 8 then
    match decodeCmd (BitVec.ofNat 8 w) with
    | .ok _ => some (.cmd (BitVec.ofNat 8 w))
    | .error .wrapincFromHost => some (.irq (BitVec.ofNat 8 w))
    | .error _ => if w / 64 % 4 = 0 then some (.port (selectorAccess w)) else some (.cmd (BitVec.ofNat 8 w))
  else if w / 64 % 4 = 0 then some (.port (selectorAccess w)) else none

/-- The instruction the decoder reads from a table word. -/
def decodeTableWord (nbits w : Nat) : Option Instr :=
  match tableWord nbits w with
  | some e => (decode e).toOption
  | none => none

end Sys2Proof
end

