-- ==== Sys2Proof/Machine/State.lean ====
section
/-! DEFINITION. The state of the block (10_state.md), its reset value (70_reset_and_hazards.md R200), and the reasons a step
could stop.

`none` in an `Option` field is the spec's own value `⊥` (00_scope.md R17), which R200 names as the reset value of OVF, SEC,
CUR, RES, HIGH and LOW (log 4) and R33 words as "no value" for OP and J (log 6).
-/

namespace Sys2Proof.Machine

/-- `PH` of R33: the next sub-step to run. -/
inductive Phase where
  | idle
  | n1
  | n2
  | n3
  | n4
  deriving DecidableEq, Repr

/-- `OP` of R33: the command whose sub-steps are running. -/
inductive SeqOp where
  | now
  | dtt
  | arm
  deriving DecidableEq, Repr

/-- A value a port read returned to the host, of the port's width (R72). -/
inductive Returned where
  /-- RDSEC's WS bits (R153). -/
  | seconds (v : Seconds)
  /-- RDCUR's, RDRES's or RDD's WE bits (R154, R155, R157). -/
  | extended (v : Extended)
  /-- RDSTAT's 16 bits (R156). -/
  | status (v : BitVec 16)
  deriving DecidableEq, Repr

/-- Every element of 10_state.md section 1, the ghost counters of R39, and the model's own record of its environment. -/
structure State where
  /-- HTR, the Hardware Tick Register (R20). -/
  htr : Tick
  /-- PEND, the overflow-pending flag (R21). -/
  pend : Bool
  /-- RUN, the count-enable bit (R22). -/
  run : Bool
  /-- OVF, the Overflow Counter (R23). -/
  ovf : Option Overflow
  /-- INITED, the initialised bit (R24). -/
  inited : Bool
  /-- IE, the interrupt-enable input (R25). -/
  ie : Bool
  /-- D[0..NJ-1], the deadline slots (R26). -/
  d : Vector Extended Config.nj
  /-- SEC, the seconds operand register (R27). -/
  sec : Option Seconds
  /-- CUR, the current-time register (R28). -/
  cur : Option Extended
  /-- RES, the result register of DTT (R29). -/
  res : Option Extended
  /-- DUE, the comparison result (R30). -/
  due : Bool
  /-- ERR, the sticky fault bit (R31). -/
  err : Bool
  /-- ECODE, the first-fault code (R32). -/
  ecode : BitVec 4
  /-- PH, the sequencer phase (R33). -/
  ph : Phase
  /-- OP, the command in flight (R33). -/
  op : Option SeqOp
  /-- J, the slot of the ARM in flight (R33). -/
  j : Option Slot
  /-- HIGH, the latch of OVF (R34). -/
  high : Option Overflow
  /-- LOW, the latch of HTR (R35). -/
  low : Option Tick
  /-- TICKS, ghost (R39): TICK steps since INIT. -/
  ticks : Nat
  /-- WRAPS, ghost (R39): wrapping TICK steps since INIT. -/
  wraps : Nat
  /-- LOST, ghost (R39): wrapping TICK steps that found PEND = 1. -/
  lost : Nat
  /-- MODEL'S OWN (log 1): the agents that step next, first one first. -/
  schedule : List Config.Agent
  /-- MODEL'S OWN (log 2): the host's next actions in program order. -/
  hostQueue : List Config.HostAct
  /-- MODEL'S OWN (log 1): how many agents were drawn from `Config.freeAgent`. -/
  agentDraws : Nat
  /-- MODEL'S OWN (log 2): how many actions were drawn from `Config.freeHostAct`. -/
  actDraws : Nat
  /-- MODEL'S OWN (log 10): the values port reads have returned, newest first. -/
  reads : List Returned
  /-- MODEL'S OWN (log 22): the host's program has executed HALT (R211). -/
  halted : Bool
  deriving DecidableEq, Repr

/-- Why a step could stop with a fault. There is no constructor, and nothing raises one: every fault of this hardware is a
record in ERR and ECODE after which "the block continues to accept port accesses" (R171), so it is a next state (log 16). -/
inductive Fault where
  deriving DecidableEq, Repr

/-- Why a step could be refused. -/
inductive Refusal where
  /-- An instruction that has no meaning yet. Raised only by an arm of `exec` that rejects its instruction by name; no arm
  does, so nothing raises it. Safe: the model stops where the hardware goes on. -/
  | notModelled (mnemonic : String)
  deriving DecidableEq, Repr

/-- Power-on reset (R200). OP and J have no value (R33; log 6), the ghost counters are 0 (log 7), the model's own lists are
empty and its counters 0 (log 1, 2, 10), and no program has halted (log 22). -/
def State.reset : State where
  htr := 0
  pend := false
  run := false
  ovf := none
  inited := false
  ie := false
  d := Vector.replicate Config.nj 0
  sec := none
  cur := none
  res := none
  due := false
  err := false
  ecode := 0
  ph := .idle
  op := none
  j := none
  high := none
  low := none
  ticks := 0
  wraps := 0
  lost := 0
  schedule := []
  hostQueue := []
  agentDraws := 0
  actDraws := 0
  reads := []
  halted := false

end Sys2Proof.Machine
end

