-- ==== Sys2Proof/Machine/Ops.lean ====
section
/-! DEFINITION. The operations every meaning shares: the fault action (60_exceptions.md R171), the host hold (42_hostport.md
R150), returning a value at a port, starting a read, and the choices of the environment.

Taking an exception is `raiseFault`. There is no return from one: a fault "saves no state and has no vector, no return and no
nesting" (R180), and the interrupt's step saves nothing either (R183).
-/

namespace Sys2Proof.Machine

/-- The answer of a step or a meaning on this hardware. -/
abbrev Answer : Type := Host.Outcome State Fault Refusal

/-! ## Faults -/

/-- The code recorded in ECODE (R170). -/
def faultBits : FaultCode → BitVec 4
  | .illegalCmd => 1
  | .wrapincFromHost => 2
  | .reinit => 3
  | .initWithIe => 4
  | .preInit => 5
  | .unwrittenRead => 6
  | .badPort => 7

/-- `raise Fault(code)` of R171: ECODE keeps the first code since reset, ERR is set, the sequencer returns to IDLE, and
nothing else changes. -/
def raiseFault (code : FaultCode) (s : State) : State :=
  { s with
    ecode := if s.err then s.ecode else faultBits code
    err := true
    ph := .idle }

/-- Reads an element that may be `⊥`: "Reading `⊥` never yields a number: the rule that reads it raises a fault" (R17). -/
def withValue {α : Type} (x : Option α) (code : FaultCode) (s : State) (use : α → State) : State :=
  match x with
  | some v => use v
  | none => raiseFault code s

/-! ## The host -/

/-- BUSY, defined as `PH != IDLE` (R33). -/
def isBusy (s : State) : Bool :=
  match s.ph with
  | .idle => false
  | .n1 | .n2 | .n3 | .n4 => true

/-- The HOST agent takes an access only while PH = IDLE (R150); in a busy state the access holds and nothing changes (R18;
log 13). -/
def whenIdle (s : State) (act : State → State) : Answer :=
  .next (if isBusy s then s else act s)

/-- A port read returns a value to the host (R72); a read has no other effect (R55; log 10). -/
def returnValue (v : Returned) (s : State) : State :=
  { s with reads := v :: s.reads }

/-- Issue of a NOW-family command: the sequencer starts at N1 (R106, R132). -/
def startRead (o : SeqOp) (s : State) : State :=
  { s with op := some o, ph := .n1 }

/-! ## The environment's choices -/

/-- The agent that steps next: the schedule's first, or a free one where the schedule is empty (R58, R182; log 1). -/
def nextAgent (s : State) : Config.Agent :=
  match s.schedule with
  | a :: _ => a
  | [] => Config.freeAgent s.agentDraws

/-- The state after that choice was made. -/
def dropAgent (s : State) : State :=
  match s.schedule with
  | _ :: rest => { s with schedule := rest }
  | [] => { s with agentDraws := s.agentDraws + 1 }

/-- What the host does next: the queue's first action (R59), or a free one where the queue is empty (log 2). -/
def nextAct (s : State) : Config.HostAct :=
  match s.hostQueue with
  | x :: _ => x
  | [] => Config.freeHostAct s.actDraws

/-- The state after the host took that action up. -/
def dropAct (s : State) : State :=
  match s.hostQueue with
  | _ :: rest => { s with hostQueue := rest }
  | [] => { s with actDraws := s.actDraws + 1 }

end Sys2Proof.Machine
end

