-- ==== Sys2Proof/Machine/Operands.lean ====
section
/-! DEFINITION. Operand forms: a deadline slot by number (10_state.md R26, R38), an extended value from its two latches
(40_clock.md R110), and the duration arithmetic (41_scheduler.md R130). -/

namespace Sys2Proof.Machine

/-- `s.D[j]`, where `j` names a slot (R26, R38). -/
def readSlot (j : Slot) (s : State) : Option Extended := s.d[j.toNat]?

/-- `s.D[j] <- v`; a number that names no slot is ILLEGAL_CMD (R38, R74; log 12). -/
def writeSlot (j : Slot) (v : Extended) (s : State) : State :=
  if h : j.toNat < Config.nj then { s with d := s.d.set j.toNat v h } else raiseFault .illegalCmd s

/-- `T = zext_WE({HIGH, LOW})` (R110). -/
def extendedTime (high : Overflow) (low : Tick) : Extended := (high ++ low).setWidth Config.we

/-- `dtt(S, T)` of R130, with RATE as an argument: 0 for no seconds, else `T + S * RATE` modulo `2^WE`. -/
def durationToTicks (rate : Nat) (sec : Seconds) (t : Extended) : Extended :=
  if sec = 0 then 0 else t + sec.setWidth Config.we * BitVec.ofNat Config.we rate

end Sys2Proof.Machine
end

