-- ==== Sys2Proof/Machine/Flags.lean ====
section
/-! DEFINITION. Flag computations: the STATUS view (10_state.md R36), DUE (41_scheduler.md R131), the wrap of HTR (40_clock.md
R100) and the guard test (40_clock.md R109). -/

namespace Sys2Proof.Machine

/-- One flag as a bit of STATUS. -/
def flagBit (b : Bool) : BitVec 1 := BitVec.ofBool b

/-- `STATUS = {0000, ECODE, 0, IE, RUN, PEND, INITED, ERR, BUSY, DUE}` (R36). -/
def statusWord (s : State) : BitVec 16 :=
  0#4 ++ s.ecode ++ 0#1 ++ flagBit s.ie ++ flagBit s.run ++ flagBit s.pend ++ flagBit s.inited ++ flagBit s.err
    ++ flagBit (isBusy s) ++ flagBit s.due

/-- `is_due(d, c)` of R131: the zero sentinel and a plain unsigned comparison (C1). -/
def isDue (deadline current : Extended) : Bool :=
  decide (deadline ≠ 0) && decide (deadline.toNat ≤ current.toNat)

/-- HTR stands at its maximum, so that the next TICK wraps it (R100). -/
def atWrap (htr : Tick) : Bool := decide (htr = BitVec.allOnes Config.w1)

/-- `LOW <u GUARD`, the strict test of the guarded re-read (R109), with GUARD as an argument. -/
def belowGuard (guardTicks : Nat) (low : Tick) : Bool := decide (low.toNat < guardTicks)

end Sys2Proof.Machine
end

