-- ==== Sys2Proof/Machine/Clock.lean ====
section
/-! DEFINITION. The Extended Clock's steps outside a read (40_clock.md): TICK, the IRQ step WRAPINC, INIT and the issue of NOW. -/

namespace Sys2Proof.Machine

/-- The TICK step (R100): holds unless RUN = 1; a wrap sets PEND, and a wrap that finds it set is lost (R101). -/
def tickStep (s : State) : State :=
  if s.run then
    if atWrap s.htr then
      { s with
        ticks := s.ticks + 1
        htr := 0
        wraps := s.wraps + 1
        lost := if s.pend then s.lost + 1 else s.lost
        pend := true }
    else
      { s with ticks := s.ticks + 1, htr := s.htr + 1 }
  else s

/-- The IRQ step (R102): holds unless PEND = 1 and IE = 1; OVF counts modulo `2^W2`. OVF cannot be `⊥` there in a run; where
it is, R17 gives the fault (log 5). -/
def irqStep (s : State) : State :=
  if s.pend && s.ie then
    withValue s.ovf .preInit s fun o => { s with pend := false, ovf := some (o + 1) }
  else s

/-- WRAPINC (R102), the interrupt source's command; the host's copy of its word never reaches it (R112). -/
def execWrapinc (s : State) : Answer := .next (irqStep s)

/-- The effect of INIT (R105): REINIT is checked before INIT_WITH_IE (R179). -/
def initBlock (s : State) : State :=
  if s.inited then raiseFault .reinit s
  else if s.ie then raiseFault .initWithIe s
  else
    { s with
      htr := 0
      ovf := some 0
      pend := false
      run := true
      inited := true
      ticks := 0
      wraps := 0
      lost := 0 }

/-- INIT (R105). -/
def execInit (s : State) : Answer := whenIdle s initBlock

/-- NOW, the issuing step (R106); the read itself is the sub-steps N1 to N4. -/
def execNow (s : State) : Answer := whenIdle s (startRead .now)

end Sys2Proof.Machine
end

