-- ==== Sys2Proof/Machine/Scheduler.lean ====
section
/-! DEFINITION. The Deadline Scheduler's commands at their issuing step (41_scheduler.md): DTT, ARM, ISDUE, CANCEL. -/

namespace Sys2Proof.Machine

/-- Issue of DTT (R132): no seconds completes at once with 0, without reading time and even before INIT. -/
def issueDtt (s : State) : State :=
  withValue s.sec .unwrittenRead s fun v =>
    if v = 0 then { s with res := some 0 } else startRead .dtt s

/-- DTT (R132). -/
def execDtt (s : State) : Answer := whenIdle s issueDtt

/-- A slot number checked as the decoder checks it: `j >= NJ` is ILLEGAL_CMD before anything else (R74, R179; log 12). -/
def withSlot (j : Slot) (s : State) (use : State → State) : State :=
  if slotOk j then use s else raiseFault .illegalCmd s

/-- Issue of ARM j (R133): no seconds makes the slot inactive at once. -/
def issueArm (j : Slot) (s : State) : State :=
  withSlot j s fun s =>
    withValue s.sec .unwrittenRead s fun v =>
      if v = 0 then writeSlot j 0 s else startRead .arm { s with j := some j }

/-- ARM j (R133). -/
def execArm (j : Slot) (s : State) : Answer := whenIdle s (issueArm j)

/-- ISDUE j (R137): the comparison of slot `j` with CUR, into DUE. -/
def compareSlot (j : Slot) (s : State) : State :=
  withValue (readSlot j s) .illegalCmd s fun deadline =>
    withValue s.cur .unwrittenRead s fun current => { s with due := isDue deadline current }

/-- ISDUE j (R137). -/
def execIsdue (j : Slot) (s : State) : Answer := whenIdle s (compareSlot j)

/-- CANCEL j (R138): the slot becomes inactive; DUE is not touched. -/
def execCancel (j : Slot) (s : State) : Answer := whenIdle s (writeSlot j 0)

end Sys2Proof.Machine
end

