-- ==== Sys2Proof/Machine/HostPort.lean ====
section
/-! DEFINITION. The host port (42_hostport.md): WRCMD, WRSEC, the port reads, and the environment action SETIE. -/

namespace Sys2Proof.Machine

/-- The command a legal command word performs (R151). A port access is no command word, so `decodeCmd` never answers one;
WRAPINC is the interrupt source's alone (R112), so it never answers that either. -/
def performCmd (i : Instr) (s : State) : Answer :=
  match i with
  | .init => execInit s
  | .now => execNow s
  | .dtt => execDtt s
  | .arm j => execArm j s
  | .isdue j => execIsdue j s
  | .cancel j => execCancel j s
  | .wrapinc => whenIdle s (raiseFault .wrapincFromHost)
  | .wrcmd _ | .wrsec _ | .rdsec | .rdcur | .rdres | .rdstat | .rdd _ => whenIdle s (raiseFault .illegalCmd)

/-- WRCMD c (R151): decode, then the command or the fault. -/
def execWrcmd (c : CmdWord) (s : State) : Answer :=
  match decodeCmd c with
  | .ok i => performCmd i s
  | .error code => whenIdle s (raiseFault code)

/-- WRSEC v (R152). -/
def execWrsec (v : Seconds) (s : State) : Answer :=
  whenIdle s fun s => { s with sec := some v }

/-- RDSEC (R153). -/
def execRdsec (s : State) : Answer :=
  whenIdle s fun s => withValue s.sec .unwrittenRead s fun v => returnValue (.seconds v) s

/-- RDCUR (R154). -/
def execRdcur (s : State) : Answer :=
  whenIdle s fun s => withValue s.cur .unwrittenRead s fun v => returnValue (.extended v) s

/-- RDRES (R155). -/
def execRdres (s : State) : Answer :=
  whenIdle s fun s => withValue s.res .unwrittenRead s fun v => returnValue (.extended v) s

/-- RDSTAT (R156). -/
def execRdstat (s : State) : Answer :=
  whenIdle s fun s => returnValue (.status (statusWord s)) s

/-- RDD j (R157): a number that names no slot is a reserved port (R158; log 12). -/
def execRdd (j : Slot) (s : State) : Answer :=
  whenIdle s fun s => withValue (readSlot j s) .badPort s fun v => returnValue (.extended v) s

/-- An access to a reserved selector or port (R158). -/
def reservedAccess (code : FaultCode) (s : State) : Answer := whenIdle s (raiseFault code)

/-- SETIE b (R159). -/
def setInterruptEnable (b : Bool) (s : State) : Answer :=
  whenIdle s fun s => { s with ie := b }

end Sys2Proof.Machine
end

