-- ==== Sys2Proof/Machine/Dispatch.lean ====
section
/-! DEFINITION. One arm per row of the opcode table. -/

namespace Sys2Proof.Machine

def exec (i : Instr) (s : State) : Host.Outcome State Fault Refusal :=
  match i with
  | .init => Sys2Proof.Machine.execInit s
  | .now => Sys2Proof.Machine.execNow s
  | .dtt => Sys2Proof.Machine.execDtt s
  | .arm j => Sys2Proof.Machine.execArm j s
  | .isdue j => Sys2Proof.Machine.execIsdue j s
  | .cancel j => Sys2Proof.Machine.execCancel j s
  | .wrapinc => Sys2Proof.Machine.execWrapinc s
  | .wrcmd c => Sys2Proof.Machine.execWrcmd c s
  | .wrsec v => Sys2Proof.Machine.execWrsec v s
  | .rdsec => Sys2Proof.Machine.execRdsec s
  | .rdcur => Sys2Proof.Machine.execRdcur s
  | .rdres => Sys2Proof.Machine.execRdres s
  | .rdstat => Sys2Proof.Machine.execRdstat s
  | .rdd j => Sys2Proof.Machine.execRdd j s

end Sys2Proof.Machine
end

