-- ==== Sys2Proof/Machine/Sequencer.lean ====
section
/-! DEFINITION. The sub-steps of the NOW family (40_clock.md R107 to R110, 41_scheduler.md R132, R134), each one step of the
HOST agent, with GUARD and RATE as arguments (00_scope.md R10, R11).

A `⊥` met where the spec shows that none can be met (R34, R35, R109) raises the fault R17 gives for reading it (log 5).
-/

namespace Sys2Proof.Machine

/-- N1 (R107): HIGH from OVF; PRE_INIT before INIT. -/
def subN1 (s : State) : State :=
  if s.inited then
    withValue s.ovf .preInit s fun o => { s with high := some o, ph := .n2 }
  else raiseFault .preInit s

/-- N2 (R108): LOW from HTR. -/
def subN2 (s : State) : State :=
  { s with low := some s.htr, ph := .n3 }

/-- N3 (R109): OVF is read again iff LOW is below GUARD. -/
def subN3 (guardTicks : Nat) (s : State) : State :=
  withValue s.low .unwrittenRead s fun l =>
    if belowGuard guardTicks l then
      withValue s.ovf .preInit s fun o => { s with high := some o, ph := .n4 }
    else { s with ph := .n4 }

/-- N4 of NOW (R110): CUR takes the value read. -/
def finishNow (t : Extended) (s : State) : State :=
  { s with cur := some t, ph := .idle }

/-- N4 of DTT (R132): RES takes the deadline; CUR is not written. -/
def finishDtt (rate : Nat) (t : Extended) (s : State) : State :=
  withValue s.sec .unwrittenRead s fun v => { s with res := some (durationToTicks rate v t), ph := .idle }

/-- N4 of ARM (R134): the slot J takes the deadline; CUR is not written. -/
def finishArm (rate : Nat) (t : Extended) (s : State) : State :=
  withValue s.j .unwrittenRead s fun j =>
    withValue s.sec .unwrittenRead s fun v =>
      writeSlot j (durationToTicks rate v t) { s with ph := .idle }

/-- N4 (R110, R132, R134): the value is assembled from the latches and goes where OP says. -/
def subN4 (rate : Nat) (s : State) : State :=
  withValue s.high .unwrittenRead s fun h =>
    withValue s.low .unwrittenRead s fun l =>
      withValue s.op .unwrittenRead s fun o =>
        match o with
        | .now => finishNow (extendedTime h l) s
        | .dtt => finishDtt rate (extendedTime h l) s
        | .arm => finishArm rate (extendedTime h l) s

/-- The HOST agent's step while the sequencer is busy (R150): the sub-step PH names. Idle, there is none to run. -/
def subStep (guardTicks rate : Nat) (s : State) : State :=
  match s.ph with
  | .idle => s
  | .n1 => subN1 s
  | .n2 => subN2 s
  | .n3 => subN3 guardTicks s
  | .n4 => subN4 rate s

end Sys2Proof.Machine
end

