-- ==== Sys2Proof/Machine/HostAgent.lean ====
section
/-! DEFINITION. The HOST agent's step (00_scope.md R19, 42_hostport.md R150) and the end of the host's program
(70_reset_and_hazards.md R211). -/

namespace Sys2Proof.Machine

/-- HALT (30_encoding.md R81): the host's program ends (R211). The block sees nothing of it (log 22). -/
def haltHost (s : State) : Answer :=
  whenIdle s fun s => { s with halted := true }

/-- A host action taken up while the sequencer is idle (R150): SETIE, HALT, or a port access decoded and executed. -/
def hostAction (x : Config.HostAct) (s : State) : Answer :=
  match x with
  | .setie b => setInterruptEnable b s
  | .halt => haltHost s
  | .access a =>
    match decodeAccess a with
    | .ok i => exec i s
    | .error code => reservedAccess code s

/-- The HOST agent's step (R150): a sub-step while busy, else its next action. A host whose program has ended has no action left
and holds (R18, R211; log 22). -/
def hostStep (s : State) : Answer :=
  if isBusy s then .next (subStep Config.guardTicks Config.rate s)
  else if s.halted then .next s
  else hostAction (nextAct s) (dropAct s)

end Sys2Proof.Machine
end

