-- ==== Sys2Proof/Machine/Placing.lean ====
section
/-! DEFINITION. How an instruction comes to the block (10_state.md R37, 70_reset_and_hazards.md R201: no program counter, no reset vector): the host
issues it at the port, the interrupt source performs its own. Also the assembler's spelling of the host's actions
(30_encoding.md R79) and the pseudo-instructions (R80). -/

namespace Sys2Proof.Machine

/-- `s` in which the next step is the HOST agent's access `a`: chosen next, first in the host's queue, the sequencer idle and
the host's program not ended, as the access needs it (R150, R211). -/
def placeAccess (a : Config.Access) (s : State) : State :=
  { s with ph := .idle, halted := false, schedule := .host :: s.schedule, hostQueue := .access a :: s.hostQueue }

/-- `s` in which the next step performs the encoded instruction: a command word is written to port CMD (R151), the interrupt
source's word is the IRQ agent's step (R102), an access is made. -/
def placeNext (e : Encoded) (s : State) : State :=
  match e with
  | .cmd c => placeAccess (writeCmd c) s
  | .irq _ => { s with schedule := .irq :: s.schedule }
  | .port a => placeAccess a s

/-! ## Host programs -/

/-- One command as the host issues it: a write of its word to CMD (R79). -/
def issueCmd (op : BitVec 4) (j : Slot) : Config.HostAct := .access (writeCmd (cmdWord op j))

/-- `WRSEC v` as a host action (R79). -/
def issueWrsec (v : Seconds) : Config.HostAct := .access (writePort 1#5 v)

/-- The pseudo-instructions of R80. -/
inductive Pseudo where
  | dur (s : Seconds)
  | arms (j : Slot) (s : Seconds)
  | poll (j : Slot)
  | cli
  | sei
  deriving DecidableEq, Repr

/-- Their expansions (R80). -/
def expand : Pseudo → List Config.HostAct
  | .dur s => [issueWrsec s, issueCmd 3#4 0#4]
  | .arms j s => [issueWrsec s, issueCmd 4#4 j]
  | .poll j => [issueCmd 2#4 0#4, issueCmd 5#4 j]
  | .cli => [.setie false]
  | .sei => [.setie true]

end Sys2Proof.Machine
end

