-- ==== Sys2Proof/Machine/Step.lean ====
section
/-! DEFINITION. One step of the system (00_scope.md R19, 20_memory.md R58): the agent chosen next takes its step. -/

namespace Sys2Proof.Machine

/-- One step: the agent the environment chose takes it (R19, R58, R182). -/
def step (s : State) : Host.Outcome State Fault Refusal :=
  match nextAgent s with
  | .tick => .next (tickStep (dropAgent s))
  | .irq => exec .wrapinc (dropAgent s)
  | .host => hostStep (dropAgent s)

/-- `s` with a word of the opcode table placed where the next step takes it up (log 15). -/
def State.withFetchWord (s : State) (nbits w : Nat) : State :=
  match tableWord nbits w with
  | some e => placeNext e s
  | none => s

end Sys2Proof.Machine
end

