-- ==== Sys2Proof/Safety.lean ====
section
/-! DEFINITION. The terms claims are stated in: what a recorded fault is (60_exceptions.md R171), runs as steps of agents (20_memory.md
R58), the end of a run and what a postcondition may read (70_reset_and_hazards.md R211), infinite runs and weak fairness (R210), the
invariant of the block, and the correctness of a read (40_clock.md R111 to R116). -/

namespace Sys2Proof.Safety

open Sys2Proof.Machine

/-! ## Faults -/

/-- The state R171 gives after a fault with this code: the code is recorded if ERR was 0, ERR is 1, PH is IDLE, all else is
as before. -/
def recorded (code : BitVec 4) (s : State) : State :=
  { s with ecode := if s.err = true then s.ecode else code, err := true, ph := .idle }

/-- A faulted run (R211): ERR is 1. It satisfies no postcondition. -/
def Faulted (s : State) : Prop := s.err = true

/-! ## Runs -/

/-- A step of the HOST agent. -/
def HostMove (s t : State) : Prop := nextAgent s = .host ∧ step s = .next t

/-- A step of TICK or IRQ, one that holds included. -/
def OtherMove (s t : State) : Prop := nextAgent s ≠ .host ∧ step s = .next t

/-- A step of any agent. -/
def Move (s t : State) : Prop := step s = .next t

/-- Any number of TICK and IRQ steps. -/
abbrev OtherMoves : State → State → Prop := Relation.ReflTransGen OtherMove

/-- Any number of steps. -/
abbrev Moves : State → State → Prop := Relation.ReflTransGen Move

/-! ## The end of a run -/

/-- The step in which the host's program executes HALT; "the end state is read at the host's `HALT`" (R211; log 22). -/
def HaltMove (s t : State) : Prop := HostMove s t ∧ s.halted = false ∧ t.halted = true

/-- A run of the host's program from `s` ends in `t` (R211): any steps, then the HALT. -/
def RunEnds (s t : State) : Prop := ∃ u, Moves s u ∧ HaltMove u t

/-- The end of a run that may satisfy a postcondition (R211): HALT was executed, the sequencer is idle and no fault was
recorded. -/
def GoodEnd (s : State) : Prop := s.halted = true ∧ s.ph = .idle ∧ ¬ Faulted s

/-- What a postcondition may read (R211: "only host-visible values (the ports and the host program's own variables)"): each
readable port's register or view, and the values the host's reads returned (log 10). -/
structure HostView where
  /-- Port SEC (R153). -/
  sec : Option Seconds
  /-- Port CUR (R154). -/
  cur : Option Extended
  /-- Port RES (R155). -/
  res : Option Extended
  /-- Port STATUS (R156). -/
  status : BitVec 16
  /-- The slot ports (R157). -/
  d : Vector Extended Config.nj
  /-- What the host's variables are computed from. -/
  reads : List Returned
  deriving DecidableEq, Repr

/-- The host's view of a state. -/
def hostView (s : State) : HostView :=
  { sec := s.sec, cur := s.cur, res := s.res, status := statusWord s, d := s.d, reads := s.reads }

/-- An end state satisfies a postcondition (R211): it is a good end and the postcondition holds of what the host sees. -/
def Satisfies (t : State) (post : HostView → Prop) : Prop := GoodEnd t ∧ post (hostView t)

/-- Every run of the host's program that ends, ends in a state that satisfies the postcondition. -/
def Ensures (s : State) (post : HostView → Prop) : Prop := ∀ t, RunEnds s t → Satisfies t post

/-! ## Infinite runs and fairness -/

/-- What the environment chooses for one step: the agent, and what the host issues if it takes an action up. -/
structure Choice where
  agent : Config.Agent
  act : Config.HostAct
  deriving DecidableEq, Repr

/-- `s` with this choice as all that is listed of what comes next; the block is as it was (log 1, 2). -/
def offered (c : Choice) (s : State) : State := { s with schedule := [c.agent], hostQueue := [c.act] }

/-- An infinite run (R210): without end, a choice of the environment and a step of the system (log 19). -/
structure InfiniteRun where
  state : Nat → State
  choice : Nat → Choice
  moves : ∀ n, step (offered (choice n) (state n)) = .next (state (n + 1))

/-- TICK has a step (R100). -/
def TickEnabled (s : State) : Prop := s.run = true

/-- IRQ has a step (R102). -/
def IrqEnabled (s : State) : Prop := s.pend = true ∧ s.ie = true

/-- A sub-step of the HOST is due (R33, R150). -/
def SubStepEnabled (s : State) : Prop := s.ph ≠ .idle

/-- Weak fairness to one agent: from any point on, if it stays enabled it steps. Said of every point, it steps infinitely often
while it stays enabled. -/
def WeaklyFair (r : InfiniteRun) (a : Config.Agent) (enabled : State → Prop) : Prop :=
  ∀ n, (∀ m, n ≤ m → enabled (r.state m)) → ∃ m, n ≤ m ∧ (r.choice m).agent = a

/-- The weak fairness of R210, the only liveness assumptions: "TICK steps infinitely often while `RUN = 1`, IRQ steps whenever it
stays enabled, and the HOST's sub-steps are always eventually taken". A claim about an infinite run carries it as a premise. -/
structure Fair (r : InfiniteRun) : Prop where
  tick : WeaklyFair r .tick TickEnabled
  irq : WeaklyFair r .irq IrqEnabled
  subSteps : WeaklyFair r .host SubStepEnabled

/-! ## The invariant -/

/-- PEND as a number. -/
def pendCount (s : State) : Nat := if s.pend then 1 else 0

/-- The wraps the IRQ step has counted: all but the lost ones and the pending one (R114). -/
def servedWraps (s : State) : Nat := s.wraps - s.lost - pendCount s

/-- R113: HTR is the number of ticks since the last wrap. -/
def TicksSplit (s : State) : Prop := s.ticks = s.wraps * 2 ^ Config.w1 + s.htr.toNat

/-- R114: OVF is the number of wraps less the lost ones and the pending one, modulo `2^W2`. -/
def WrapsCounted (s : State) : Prop :=
  s.lost + pendCount s ≤ s.wraps ∧ ∀ o, s.ovf = some o → o.toNat = servedWraps s % 2 ^ Config.w2

/-- What holds before INIT (R200, R201, R203): nothing counts, no slot is armed, and a read can at most be at N1. -/
def BeforeInit (s : State) : Prop :=
  s.htr = 0 ∧ s.pend = false ∧ s.ticks = 0 ∧ s.wraps = 0 ∧ s.lost = 0 ∧
    (∀ j, readSlot j s = some 0 ∨ readSlot j s = none) ∧ (s.ph = .idle ∨ s.ph = .n1)

/-- The sequencer's state fits the command in flight (R33 to R35): N2 to N4 are reached only after INIT with HIGH latched, N3
and N4 with LOW latched; DTT and ARM run only with `SEC != 0`, ARM only with a slot that exists. -/
def SequencerFits (s : State) : Prop :=
  match s.ph with
  | .idle => True
  | .n1 => CommandFits s
  | .n2 => CommandFits s ∧ s.inited = true ∧ s.high ≠ none
  | .n3 => CommandFits s ∧ s.inited = true ∧ s.high ≠ none ∧ s.low ≠ none
  | .n4 => CommandFits s ∧ s.inited = true ∧ s.high ≠ none ∧ s.low ≠ none
where
  /-- OP, SEC and J of the command in flight. -/
  CommandFits (s : State) : Prop :=
    match s.op with
    | none => False
    | some .now => True
    | some .dtt => ∃ v, s.sec = some v ∧ v ≠ 0
    | some .arm => (∃ v, s.sec = some v ∧ v ≠ 0) ∧ ∃ j, s.j = some j ∧ j.toNat < Config.nj

/-- The invariant of the block. -/
structure BlockInv (s : State) : Prop where
  /-- Counting starts with INIT (R22, R24). -/
  run_inited : s.run = s.inited
  /-- OVF has a value from INIT on (R23). -/
  ovf_inited : s.ovf.isSome = s.inited
  /-- Before INIT time stands still and every slot is inactive (R201, R203). -/
  before_init : s.inited = false → BeforeInit s
  /-- R113. -/
  ticks_split : TicksSplit s
  /-- R114. -/
  wraps_counted : WrapsCounted s
  /-- A value a read produced fits WX bits (R110). -/
  cur_fits : ∀ v, s.cur = some v → v.toNat < 2 ^ Config.wx
  /-- DUE is set only by a comparison with CUR (R30, R137). -/
  due_compared : s.due = true → s.cur ≠ none
  /-- ECODE is 0 exactly while there is no fault, and codes 8 to 15 are never recorded (R32, R170). -/
  code_recorded : (s.err = false ↔ s.ecode = 0) ∧ s.ecode.toNat ≤ 7
  /-- R33 to R35. -/
  sequencer : SequencerFits s
  /-- A host's program ends with the sequencer idle (R150, R211). -/
  halted_idle : s.halted = true → s.ph = .idle

/-! ## Reads -/

/-- The value the latches spell, `HIGH * 2^W1 + LOW` (R110). -/
def latchedTime (s : State) : Option Nat :=
  match s.high, s.low with
  | some h, some l => some (h.toNat * 2 ^ Config.w1 + l.toNat)
  | _, _ => none

/-- The true Extended Tick Count (R115). -/
def trueCount (s : State) : Nat := s.ticks % 2 ^ Config.wx

/-- The states just before N1, N2, N3 (R111) and N4 of one NOW-family read. -/
structure Read where
  t1 : State
  t2 : State
  t3 : State
  t4 : State

/-- The four states belong to one run: N1, then TICK and IRQ steps, then N2, and so on (R58, R111, R150). -/
def Read.Occurs (r : Read) : Prop :=
  r.t1.ph = .n1 ∧ r.t1.inited = true ∧
    (∃ a, HostMove r.t1 a ∧ OtherMoves a r.t2) ∧
    (∃ a, HostMove r.t2 a ∧ OtherMoves a r.t3) ∧
    ∃ a, HostMove r.t3 a ∧ OtherMoves a r.t4

/-- P0 of R116: no wrap has been lost. -/
def Read.NoneLost (r : Read) : Prop := r.t3.lost = 0

/-- P1 of R116: fewer than GUARD ticks elapse in the read window. -/
def Read.Short (r : Read) : Prop := r.t3.ticks - r.t1.ticks < Config.guardTicks

/-- P2 of R116: every wrap that happened before `t2` was serviced before `t3`. -/
def Read.ServedByReread (r : Read) : Prop := r.t2.wraps ≤ servedWraps r.t3

/-- P3 of R116: every wrap that happened at least GUARD ticks before `t2` was serviced before `t1`. The k-th wrap since INIT
happens at tick `k * 2^W1`. -/
def Read.OldServedByStart (r : Read) : Prop :=
  ∀ k, 1 ≤ k → k * 2 ^ Config.w1 + Config.guardTicks ≤ r.t2.ticks → k ≤ servedWraps r.t1

/-- All four premises of R116. -/
def Read.Premises (r : Read) : Prop := r.NoneLost ∧ r.Short ∧ r.ServedByReread ∧ r.OldServedByStart

/-- The read is correct (R115): its value is the true count when HTR was read. -/
def Read.Correct (r : Read) : Prop := latchedTime r.t4 = some (trueCount r.t2)

/-! ## Jobs -/

/-- The states of a job (R140). -/
inductive JobState where
  | inactive
  | armed
  | due
  deriving DecidableEq, Repr

/-- The state of a job with this deadline at this true count (R140). -/
def jobState (deadline : Extended) (now : Nat) : JobState :=
  if deadline = 0 then .inactive else if now < deadline.toNat then .armed else .due

end Sys2Proof.Safety
end

