-- ==== Sys2Proof/Certificates/Slice0/Obligations.lean ====
section
/-! DEFINITION. The statements for the provers. Each docstring names the rule it formalises. `dropAgent s` and `dropAct s` are `s`
with the environment's choice taken and the block as it was (log 1, 2). XTC has no memory and no program
counter (R37, 20_memory.md), so a frame speaks of registers only; a conclusion `= .next { s with … }` says that every element it
does not name is unchanged. -/

open Sys2Proof Sys2Proof.Machine Sys2Proof.Safety

/-! ## Encoding -/

/-- R76: the decoding of every command word the host can write, by `op` and `j`, and the count of the legal ones. -/
def Obligations.CommandWordsDecodeAsTabled : Prop :=
  (∀ op j : BitVec 4, decode (.cmd (op ++ j)) =
    if op = 1 then (if j = 0 then .ok .init else .error .illegalCmd)
    else if op = 2 then (if j = 0 then .ok .now else .error .illegalCmd)
    else if op = 3 then (if j = 0 then .ok .dtt else .error .illegalCmd)
    else if op = 4 then (if j.toNat < Config.nj then .ok (.arm j) else .error .illegalCmd)
    else if op = 5 then (if j.toNat < Config.nj then .ok (.isdue j) else .error .illegalCmd)
    else if op = 6 then (if j.toNat < Config.nj then .ok (.cancel j) else .error .illegalCmd)
    else if op = 7 then (if j = 0 then .error .wrapincFromHost else .error .illegalCmd)
    else .error .illegalCmd) ∧
  ∀ c : CmdWord, (∃ i, decode (.cmd c) = .ok i) ↔
    c.toNat ∈ [0x10, 0x20, 0x30, 0x40, 0x41, 0x50, 0x51, 0x60, 0x61]

/-- R72, R77: the decoding of every port access by its selector. -/
def Obligations.SelectorsDecodeAsTabled : Prop :=
  ∀ a : Config.Access,
    (selector a = 0b100000 → decode (.port a) = .ok (.wrcmd (a.data.setWidth 8))) ∧
    (selector a = 0b100001 → decode (.port a) = .ok (.wrsec a.data)) ∧
    (selector a = 0b000001 → decode (.port a) = .ok .rdsec) ∧
    (selector a = 0b000010 → decode (.port a) = .ok .rdcur) ∧
    (selector a = 0b000011 → decode (.port a) = .ok .rdres) ∧
    (selector a = 0b000100 → decode (.port a) = .ok .rdstat) ∧
    (∀ j : Slot, selector a = 0b01#2 ++ j → j.toNat < Config.nj → decode (.port a) = .ok (.rdd j)) ∧
    (∀ j : Slot, selector a = 0b01#2 ++ j → Config.nj ≤ j.toNat → decode (.port a) = .error .badPort) ∧
    ((selector a).toNat ∉ [32, 33, 1, 2, 3, 4] → (∀ j : Slot, selector a ≠ 0b01#2 ++ j) →
      decode (.port a) = .error .badPort)

/-- No bit of an encoding is dropped: every well-formed instruction, with every operand value, decodes back from its encoding. -/
def Obligations.DecodeOfEncodeIsIdentity : Prop :=
  ∀ i : Instr, i.wellFormed = true → decode (encode i) = .ok i

/-- The other direction: a legal command word is the encoding of what it decodes to, and a legal access has the selector of
the encoding of what it decodes to. -/
def Obligations.EncodeOfDecodedIsTheSameWord : Prop :=
  (∀ (c : CmdWord) (i : Instr), decode (.cmd c) = .ok i → encode i = .cmd c) ∧
  ∀ (a : Config.Access) (i : Instr), decode (.port a) = .ok i →
    ∃ b, encode i = .port b ∧ selector b = selector a

/-- A few words written out from the tables of R71 and R72. -/
def Obligations.SpelledWordsDecode : Prop :=
  decode (.cmd 0b00010000) = .ok .init ∧ decode (.cmd 0b01000001) = .ok (.arm 1) ∧
  decode (.cmd 0b01010000) = .ok (.isdue 0) ∧ decode (.irq 0b01110000) = .ok .wrapinc ∧
  decode (.port { dir := .write, port := 0b00000, data := 0x60 }) = .ok (.wrcmd 0b01100000) ∧
  decode (.port { dir := .write, port := 0b00001, data := 60 }) = .ok (.wrsec 60) ∧
  decode (.port { dir := .read, port := 0b00100, data := 0 }) = .ok .rdstat ∧
  decode (.port { dir := .read, port := 0b10001, data := 0 }) = .ok (.rdd 1)

/-! ## The step -/

/-- A step runs the decoded instruction: where the host is next, the sequencer idle, the host's program not ended (log 22) and
its next access decodes to `i`, the step is `exec i` from the state in which the two choices are taken and the block is as before. -/
def Obligations.StepRunsTheHostsAccess : Prop :=
  (∀ s a i, nextAgent s = .host → s.ph = .idle → s.halted = false → nextAct s = .access a → decode (.port a) = .ok i →
    step s = exec i (dropAct (dropAgent s))) ∧
  (∀ s, dropAct (dropAgent s) =
    { s with
      schedule := s.schedule.tail
      hostQueue := s.hostQueue.tail
      agentDraws := (dropAgent s).agentDraws
      actDraws := (dropAct s).actDraws }) ∧
  ∀ s a i rest acts, s.schedule = .host :: rest → s.hostQueue = .access a :: acts → s.ph = .idle →
    s.halted = false → decode (.port a) = .ok i → step s = exec i { s with schedule := rest, hostQueue := acts }

/-- A step runs WRAPINC where the interrupt agent is next (R102). -/
def Obligations.StepRunsTheInterrupt : Prop :=
  (∀ s, nextAgent s = .irq → step s = exec .wrapinc (dropAgent s)) ∧
  ∀ s rest, s.schedule = .irq :: rest → step s = exec .wrapinc { s with schedule := rest }

/-- R100: the TICK step while RUN = 1: the plain count, the wrap, and the lost wrap. -/
def Obligations.TickStepCounts : Prop :=
  ∀ s, nextAgent s = .tick →
    (s.run = true → s.htr.toNat < 2 ^ Config.w1 - 1 →
      step s = .next { dropAgent s with ticks := s.ticks + 1, htr := BitVec.ofNat Config.w1 (s.htr.toNat + 1) }) ∧
    (s.run = true → s.htr.toNat = 2 ^ Config.w1 - 1 →
      step s = .next { dropAgent s with
        ticks := s.ticks + 1
        htr := 0
        wraps := s.wraps + 1
        lost := if s.pend = true then s.lost + 1 else s.lost
        pend := true })

/-- R159: SETIE writes IE and nothing else, and only from an idle sequencer (the host's program not ended, log 22). -/
def Obligations.SetieWritesInterruptEnable : Prop :=
  ∀ s b, nextAgent s = .host → s.ph = .idle → s.halted = false → nextAct s = .setie b →
    step s = .next { dropAct (dropAgent s) with ie := b }

/-- R77, R158: an access to a reserved selector raises Fault(7) and has no other effect (the host's program not ended, log 22). -/
def Obligations.ReservedSelectorsFault : Prop :=
  ∀ s a, nextAgent s = .host → s.ph = .idle → s.halted = false → nextAct s = .access a →
    (selector a).toNat ∉ [32, 33, 1, 2, 3, 4, 16, 17] →
    step s = .next (recorded 7 (dropAct (dropAgent s)))

/-- Every step of every agent from every state answers a next state: no fault or refusal stops the block (R171: "the block
continues"; log 16, DEDUCED). For an agent chosen while it is not enabled the spec has no step (R18, R100, R102, R211): that it
answers a next state there, a hold, is the model's choice (log 3, log 22, DESIGN CHOICE). -/
def Obligations.EveryStepAnswersNext : Prop :=
  ∀ s, ∃ t, step s = .next t

/-! ## Instructions: the Extended Clock -/

/-- R105: INIT completes from idle where it is legal, and faults 3 before 4 where it is not. -/
def Obligations.InitZeroesTheClock : Prop :=
  (∀ s, s.ph = .idle → s.inited = false → s.ie = false →
    exec .init s = .next { s with
      htr := 0, ovf := some 0, pend := false, run := true, inited := true, ticks := 0, wraps := 0, lost := 0 }) ∧
  (∀ s, s.ph = .idle → s.inited = true → exec .init s = .next (recorded 3 s)) ∧
  ∀ s, s.ph = .idle → s.inited = false → s.ie = true → exec .init s = .next (recorded 4 s)

/-- R102: WRAPINC, where it is enabled, clears PEND and counts the wrap modulo `2^W2`; at `OVF = 2^W2 - 1` the result is 0. -/
def Obligations.WrapincCountsTheWrap : Prop :=
  (∀ s o, s.pend = true → s.ie = true → s.ovf = some o →
    exec .wrapinc s = .next { s with pend := false, ovf := some (BitVec.ofNat Config.w2 (o.toNat + 1)) }) ∧
  ∀ s o, s.pend = true → s.ie = true → s.ovf = some o → o.toNat = 2 ^ Config.w2 - 1 →
    exec .wrapinc s = .next { s with pend := false, ovf := some 0 }

/-- The model's choice of log 3 (DESIGN CHOICE): an agent chosen while it is not enabled (TICK with RUN = 0, R100; IRQ with
PEND = 0 or IE = 0, R102) holds, a next state in which the block is unchanged (R18). With R200 it gives R201: after reset no
step of TICK or IRQ changes the block. -/
def Obligations.DisabledAgentsHold : Prop :=
  (∀ s, nextAgent s = .tick → s.run = false → step s = .next (dropAgent s)) ∧
  (∀ s, nextAgent s = .irq → s.pend = false ∨ s.ie = false → step s = .next (dropAgent s)) ∧
  ∀ s, s.pend = false ∨ s.ie = false → exec .wrapinc s = .next s

/-- R106: NOW starts the sequencer at N1, with interrupts enabled or not. -/
def Obligations.NowStartsARead : Prop :=
  ∀ s, s.ph = .idle → exec .now s = .next { s with op := some .now, ph := .n1 }

/-- R107: N1 latches OVF, or faults 5 before INIT. -/
def Obligations.FirstSubStepLatchesOverflow : Prop :=
  (∀ s o, nextAgent s = .host → s.ph = .n1 → s.inited = true → s.ovf = some o →
    step s = .next { dropAgent s with high := some o, ph := .n2 }) ∧
  ∀ s, nextAgent s = .host → s.ph = .n1 → s.inited = false → step s = .next (recorded 5 (dropAgent s))

/-- R108: N2 latches HTR. -/
def Obligations.SecondSubStepLatchesTick : Prop :=
  ∀ s, nextAgent s = .host → s.ph = .n2 →
    step s = .next { dropAgent s with low := some s.htr, ph := .n3 }

/-- R109: N3 reads OVF again iff LOW is below GUARD; at GUARD - 1 it does and at GUARD it does not, and LOW = 0 always does. -/
def Obligations.ThirdSubStepRereadsBelowGuard : Prop :=
  (∀ s l o, nextAgent s = .host → s.ph = .n3 → s.low = some l → s.ovf = some o → l.toNat < Config.guardTicks →
    step s = .next { dropAgent s with high := some o, ph := .n4 }) ∧
  (∀ s l, nextAgent s = .host → s.ph = .n3 → s.low = some l → Config.guardTicks ≤ l.toNat →
    step s = .next { dropAgent s with ph := .n4 }) ∧
  ∀ s o, nextAgent s = .host → s.ph = .n3 → s.low = some 0 → s.ovf = some o →
    step s = .next { dropAgent s with high := some o, ph := .n4 }

/-- R110: N4 of NOW writes CUR with `HIGH * 2^W1 + LOW`, below `2^WX`. -/
def Obligations.FourthSubStepOfNowWritesCur : Prop :=
  ∀ s h l, nextAgent s = .host → s.ph = .n4 → s.op = some .now → s.high = some h → s.low = some l →
    ∃ v : Extended, v.toNat = h.toNat * 2 ^ Config.w1 + l.toNat ∧ v.toNat < 2 ^ Config.wx ∧
      step s = .next { dropAgent s with cur := some v, ph := .idle }

/-! ## Instructions: the Deadline Scheduler -/

/-- R132, issue: DTT with no seconds completes at once with 0, even before INIT; with seconds it starts a read; with SEC
unwritten it faults 6. -/
def Obligations.DttIssue : Prop :=
  (∀ s, s.ph = .idle → s.sec = some 0 → exec .dtt s = .next { s with res := some 0 }) ∧
  (∀ s v, s.ph = .idle → s.sec = some v → v ≠ 0 → exec .dtt s = .next { s with op := some .dtt, ph := .n1 }) ∧
  ∀ s, s.ph = .idle → s.sec = none → exec .dtt s = .next (recorded 6 s)

/-- R132, completion: N4 of DTT writes RES with `dtt(SEC, T)` of R130, that is `T + SEC * RATE` modulo `2^WE`, or 0 for no
seconds, and does not write CUR. -/
def Obligations.FourthSubStepOfDttWritesRes : Prop :=
  ∀ s h l v, nextAgent s = .host → s.ph = .n4 → s.op = some .dtt → s.high = some h → s.low = some l →
    s.sec = some v →
    step s = .next { dropAgent s with
      res := some (if v = 0 then 0
        else BitVec.ofNat Config.we (h.toNat * 2 ^ Config.w1 + l.toNat + v.toNat * Config.rate))
      ph := .idle }

/-- R133: ARM j with no seconds clears the slot at once; with seconds it starts a read for slot `j`; with SEC unwritten it
faults 6. -/
def Obligations.ArmIssue : Prop :=
  (∀ s (j : Slot) (hj : j.toNat < Config.nj), s.ph = .idle → s.sec = some 0 →
    exec (.arm j) s = .next { s with d := s.d.set j.toNat 0 hj }) ∧
  (∀ s (j : Slot) v, j.toNat < Config.nj → s.ph = .idle → s.sec = some v → v ≠ 0 →
    exec (.arm j) s = .next { s with op := some .arm, j := some j, ph := .n1 }) ∧
  ∀ s (j : Slot), j.toNat < Config.nj → s.ph = .idle → s.sec = none → exec (.arm j) s = .next (recorded 6 s)

/-- R134: N4 of ARM writes slot J with `dtt(SEC, T)` of R130, that is `T + SEC * RATE` modulo `2^WE`, or 0 for no seconds, and
does not write CUR. -/
def Obligations.FourthSubStepOfArmWritesSlot : Prop :=
  ∀ s h l v (j : Slot) (hj : j.toNat < Config.nj), nextAgent s = .host → s.ph = .n4 → s.op = some .arm →
    s.high = some h → s.low = some l → s.sec = some v → s.j = some j →
    step s = .next { dropAgent s with
      d := s.d.set j.toNat
        (if v = 0 then 0
          else BitVec.ofNat Config.we (h.toNat * 2 ^ Config.w1 + l.toNat + v.toNat * Config.rate)) hj
      ph := .idle }

/-- R137 with R131: ISDUE compares the slot with CUR, unsigned and with the zero sentinel, into DUE; CUR unwritten faults 6, a
slot that does not exist faults 1. -/
def Obligations.IsdueComparesSlotWithCur : Prop :=
  (∀ s (j : Slot) (hj : j.toNat < Config.nj) c, s.ph = .idle → s.cur = some c →
    exec (.isdue j) s = .next { s with due := decide (s.d[j.toNat] ≠ 0 ∧ s.d[j.toNat].toNat ≤ c.toNat) }) ∧
  (∀ s (j : Slot), j.toNat < Config.nj → s.ph = .idle → s.cur = none →
    exec (.isdue j) s = .next (recorded 6 s)) ∧
  ∀ s (j : Slot), Config.nj ≤ j.toNat → s.ph = .idle → exec (.isdue j) s = .next (recorded 1 s)

/-- R138: CANCEL writes 0 to its slot and leaves DUE; a slot that does not exist faults 1. -/
def Obligations.CancelClearsTheSlot : Prop :=
  (∀ s (j : Slot) (hj : j.toNat < Config.nj), s.ph = .idle →
    exec (.cancel j) s = .next { s with d := s.d.set j.toNat 0 hj }) ∧
  ∀ s (j : Slot), Config.nj ≤ j.toNat → s.ph = .idle → exec (.cancel j) s = .next (recorded 1 s)

/-- R74, R133: ARM of a slot that does not exist faults 1, even where SEC is unwritten (R179). -/
def Obligations.ArmOfMissingSlotFaults : Prop :=
  ∀ s (j : Slot), Config.nj ≤ j.toNat → s.ph = .idle → exec (.arm j) s = .next (recorded 1 s)

/-! ## Instructions: the host port -/

/-- R151: WRCMD performs the command its word decodes to (0x20 starts a read, say); a word that spells none raises its fault
(0x70 the fault 2, every other the fault 1) and changes nothing else. -/
def Obligations.WrcmdPerformsTheCommand : Prop :=
  (∀ c i s, decode (.cmd c) = .ok i → ∃ t, exec (.wrcmd c) s = .next t ∧ exec i s = .next t) ∧
  (∀ s, s.ph = .idle → exec (.wrcmd 0x20) s = .next { s with op := some .now, ph := .n1 }) ∧
  ∀ c code s, decode (.cmd c) = .error code → s.ph = .idle →
    exec (.wrcmd c) s = .next (recorded (if c = 0x70 then 2 else 1) s)

/-- R152: WRSEC writes SEC and nothing else, `v = 0` included. -/
def Obligations.WrsecWritesSeconds : Prop :=
  ∀ s v, s.ph = .idle → exec (.wrsec v) s = .next { s with sec := some v }

/-- R153: RDSEC returns SEC, or faults 6 where SEC was never written. -/
def Obligations.RdsecReturnsSeconds : Prop :=
  (∀ s v, s.ph = .idle → s.sec = some v → exec .rdsec s = .next { s with reads := .seconds v :: s.reads }) ∧
  ∀ s, s.ph = .idle → s.sec = none → exec .rdsec s = .next (recorded 6 s)

/-- R154: RDCUR returns CUR, or faults 6 where no NOW has completed. -/
def Obligations.RdcurReturnsCur : Prop :=
  (∀ s v, s.ph = .idle → s.cur = some v → exec .rdcur s = .next { s with reads := .extended v :: s.reads }) ∧
  ∀ s, s.ph = .idle → s.cur = none → exec .rdcur s = .next (recorded 6 s)

/-- R155: RDRES returns RES, or faults 6 where no DTT has completed. -/
def Obligations.RdresReturnsRes : Prop :=
  (∀ s v, s.ph = .idle → s.res = some v → exec .rdres s = .next { s with reads := .extended v :: s.reads }) ∧
  ∀ s, s.ph = .idle → s.res = none → exec .rdres s = .next (recorded 6 s)

/-- R156 with R36: RDSTAT returns the STATUS word, bit by bit as R36 lists it, and never faults. -/
def Obligations.RdstatReturnsStatus : Prop :=
  ∀ s, s.ph = .idle → ∃ w : BitVec 16, exec .rdstat s = .next { s with reads := .status w :: s.reads } ∧
    w.getLsbD 0 = s.due ∧ w.getLsbD 1 = false ∧ w.getLsbD 2 = s.err ∧ w.getLsbD 3 = s.inited ∧
    w.getLsbD 4 = s.pend ∧ w.getLsbD 5 = s.run ∧ w.getLsbD 6 = s.ie ∧ w.getLsbD 7 = false ∧
    w.extractLsb' 8 4 = s.ecode ∧ w.extractLsb' 12 4 = 0

/-- R157: RDD j returns the slot, or faults 7 where the slot does not exist. -/
def Obligations.RddReturnsTheSlot : Prop :=
  (∀ s (j : Slot) (hj : j.toNat < Config.nj), s.ph = .idle →
    exec (.rdd j) s = .next { s with reads := .extended s.d[j.toNat] :: s.reads }) ∧
  ∀ s (j : Slot), Config.nj ≤ j.toNat → s.ph = .idle → exec (.rdd j) s = .next (recorded 7 s)

/-- R150: while the sequencer is busy every host instruction holds, and the host's step leaves its next action where it is. -/
def Obligations.HostHoldsWhileBusy : Prop :=
  (∀ i s, i ≠ .wrapinc → s.ph ≠ .idle → exec i s = .next s) ∧
  ∀ s t, nextAgent s = .host → s.ph ≠ .idle → step s = .next t →
    t.hostQueue = s.hostQueue ∧ t.actDraws = s.actDraws ∧ t.reads = s.reads ∧ t.ie = s.ie

/-! ## Reset -/

/-- R200: the reset values, and STATUS reads 0. OP, J, the ghost counters and the model's own fields are not of R200 (log 1, 2, 6,
7, 10) and are not stated here. -/
def Obligations.ResetValues : Prop :=
  State.reset.htr = 0 ∧ State.reset.pend = false ∧ State.reset.run = false ∧ State.reset.ovf = none ∧
  State.reset.inited = false ∧ State.reset.ie = false ∧
  (∀ (j : Nat) (hj : j < Config.nj), State.reset.d[j] = 0) ∧
  State.reset.sec = none ∧ State.reset.cur = none ∧ State.reset.res = none ∧ State.reset.due = false ∧
  State.reset.err = false ∧ State.reset.ecode = 0 ∧ State.reset.ph = .idle ∧
  State.reset.high = none ∧ State.reset.low = none ∧
  exec .rdstat State.reset = .next { State.reset with reads := [.status 0x0000] }

/-! ## Rules of the whole machine -/

/-- The invariant holds at reset. -/
def Obligations.InvariantHoldsAtReset : Prop := BlockInv State.reset

/-- Every step of every agent keeps the invariant. -/
def Obligations.EveryStepKeepsTheInvariant : Prop :=
  ∀ s t, BlockInv s → step s = .next t → BlockInv t

/-- R113: INIT makes `TICKS = WRAPS * 2^W1 + HTR` true and every step keeps it. -/
def Obligations.TicksAreWrapsAndTickRegister : Prop :=
  (∀ s t, s.ph = .idle → s.inited = false → s.ie = false → exec .init s = .next t → TicksSplit t) ∧
  ∀ s t, TicksSplit s → step s = .next t → TicksSplit t

/-- R114: INIT gives OVF a value and makes `OVF = (WRAPS - LOST - PEND) mod 2^W2` true, and every step keeps both. -/
def Obligations.OverflowCountsServicedWraps : Prop :=
  (∀ s t, s.ph = .idle → s.inited = false → s.ie = false → exec .init s = .next t → t.ovf ≠ none ∧ WrapsCounted t) ∧
  ∀ s t, s.ovf ≠ none → WrapsCounted s → step s = .next t → t.ovf ≠ none ∧ WrapsCounted t

/-- R171, R200: a fault is sticky; no step clears ERR or replaces a recorded code. -/
def Obligations.FaultsAreSticky : Prop :=
  ∀ s t, step s = .next t → s.err = true → t.err = true ∧ t.ecode = s.ecode

/-- R22, R24, R200: no step clears INITED or RUN. -/
def Obligations.InitedAndRunStay : Prop :=
  ∀ s t, step s = .next t → (s.inited = true → t.inited = true) ∧ (s.run = true → t.run = true)

/-- R20: only TICK and INIT write HTR. -/
def Obligations.OnlyTickAndInitWriteTickRegister : Prop :=
  ∀ s t, step s = .next t → t.htr ≠ s.htr →
    (nextAgent s = .tick ∧ s.run = true) ∨
    (nextAgent s = .host ∧ s.ph = .idle ∧ s.inited = false ∧
      ∃ a, nextAct s = .access a ∧ selector a = 0b100000 ∧ a.data.setWidth 8 = 0x10#8)

/-- R23: only the IRQ step and INIT write OVF. -/
def Obligations.OnlyInterruptAndInitWriteOverflow : Prop :=
  ∀ s t, step s = .next t → t.ovf ≠ s.ovf →
    (nextAgent s = .irq ∧ s.pend = true ∧ s.ie = true) ∨
    (nextAgent s = .host ∧ s.ph = .idle ∧ s.inited = false ∧
      ∃ a, nextAct s = .access a ∧ selector a = 0b100000 ∧ a.data.setWidth 8 = 0x10#8)

/-- R25: only SETIE writes IE. -/
def Obligations.OnlySetieWritesInterruptEnable : Prop :=
  ∀ s t, step s = .next t → t.ie ≠ s.ie →
    nextAgent s = .host ∧ s.ph = .idle ∧ nextAct s = .setie t.ie

/-- R139, R26: only ARM and CANCEL write a deadline slot: the issue of ARM or CANCEL of that slot, or N4 of an ARM of it. -/
def Obligations.OnlyArmAndCancelWriteSlots : Prop :=
  ∀ s t (k : Slot), step s = .next t → readSlot k t ≠ readSlot k s →
    nextAgent s = .host ∧
      ((s.ph = .n4 ∧ s.op = some .arm ∧ s.j = some k) ∨
        (s.ph = .idle ∧ ∃ a, nextAct s = .access a ∧ selector a = 0b100000 ∧
          (a.data.setWidth 8 = 0x4#4 ++ k ∨ a.data.setWidth 8 = 0x6#4 ++ k)))

/-- R28, R29, R30: CUR is written only by N4 of NOW, RES only by DTT, DUE only by ISDUE. -/
def Obligations.OnlyTheirCommandsWriteResults : Prop :=
  ∀ s t, step s = .next t →
    (t.cur ≠ s.cur → nextAgent s = .host ∧ s.ph = .n4 ∧ s.op = some .now) ∧
    (t.res ≠ s.res → nextAgent s = .host ∧
      ((s.ph = .n4 ∧ s.op = some .dtt) ∨
        (s.ph = .idle ∧ ∃ a, nextAct s = .access a ∧ selector a = 0b100000 ∧ a.data.setWidth 8 = 0x30#8))) ∧
    (t.due ≠ s.due → nextAgent s = .host ∧ s.ph = .idle ∧
      ∃ a, nextAct s = .access a ∧ selector a = 0b100000 ∧ ∃ k : Slot, a.data.setWidth 8 = 0x5#4 ++ k)

/-- R40, R103, R184: a TICK or IRQ step changes only HTR, PEND, OVF and the ghost counters; every other element is the HOST's
alone. -/
def Obligations.OtherAgentsTouchOnlySharedState : Prop :=
  ∀ s t, BlockInv s → nextAgent s ≠ .host → step s = .next t →
    t = { dropAgent s with
      htr := t.htr, pend := t.pend, ovf := t.ovf, ticks := t.ticks, wraps := t.wraps, lost := t.lost }

/-- R120: a read completes in four HOST steps, whatever steps of TICK and IRQ fall between them: after each of the first three
the next sub-step is due, and after the fourth the sequencer is idle; IE is never changed. -/
def Obligations.ReadsCompleteInFourHostSteps : Prop :=
  ∀ s1 a1 s2 a2 s3 a3 s4 a4, BlockInv s1 → s1.ph = .n1 → s1.inited = true →
    HostMove s1 a1 → OtherMoves a1 s2 → HostMove s2 a2 → OtherMoves a2 s3 → HostMove s3 a3 → OtherMoves a3 s4 →
    HostMove s4 a4 →
    s2.ph = .n2 ∧ s3.ph = .n3 ∧ s4.ph = .n4 ∧ a4.ph = .idle ∧ a4.ie = s1.ie ∧ a4.err = s1.err

/-- R135: with seconds, a deadline computed from a read is exactly `T + S * RATE`, later than the read and not the sentinel. -/
def Obligations.DeadlinesAreExactAndInTheFuture : Prop :=
  ∀ (v : Seconds) (t : Extended), v ≠ 0 → t.toNat < 2 ^ Config.wx →
    (durationToTicks Config.rate v t).toNat = t.toNat + v.toNat * Config.rate ∧
    t.toNat < (durationToTicks Config.rate v t).toNat ∧ durationToTicks Config.rate v t ≠ 0

/-- R140: N4 of ARM leaves its job Armed as of the value it read, Due from the deadline on, and CANCEL leaves its job Inactive. -/
def Obligations.ArmedJobsBecomeDueAtTheirDeadline : Prop :=
  (∀ s t h l v (j : Slot), nextAgent s = .host → s.ph = .n4 → s.op = some .arm → s.high = some h → s.low = some l →
    s.sec = some v → v ≠ 0 → s.j = some j → j.toNat < Config.nj → step s = .next t →
    ∃ d, readSlot j t = some d ∧
      ∀ now, h.toNat * 2 ^ Config.w1 + l.toNat ≤ now →
        jobState d now =
          if now < h.toNat * 2 ^ Config.w1 + l.toNat + v.toNat * Config.rate then .armed else .due) ∧
  ∀ s t (j : Slot), j.toNat < Config.nj → s.ph = .idle → exec (.cancel j) s = .next t →
    ∃ d, readSlot j t = some d ∧ ∀ now, jobState d now = .inactive

/-- R116: a read that meets the premises P0 to P3 is correct. -/
def Obligations.ReadsAreCorrectUnderThePremises : Prop :=
  ∀ r : Read, BlockInv r.t1 → r.Occurs → r.Premises → r.Correct

/-- R118: of two correct reads, the one whose N2 came first has the smaller or equal value, while time fits WX bits. -/
def Obligations.CorrectReadsAreMonotone : Prop :=
  ∀ r r' : Read, BlockInv r.t1 → BlockInv r'.t1 → r.Occurs → r'.Occurs → r.Correct → r'.Correct →
    Moves r.t2 r'.t2 → r'.t2.ticks < 2 ^ Config.wx →
    ∃ v v', latchedTime r.t4 = some v ∧ latchedTime r'.t4 = some v' ∧ v ≤ v'

/-- R119: OVF is `k` with nothing pending or lost, one wrap follows and no more until the read's N2, and the read meets the
premises: its value is `(k + 1) * 2^W1 + low`, not the combination before the wrap. -/
def Obligations.ReadAfterAWrapCountsIt : Prop :=
  ∀ (r : Read) (s : State) (k : Overflow), BlockInv s → s.pend = false → s.lost = 0 → s.ovf = some k →
    k.toNat + 1 < 2 ^ Config.w2 → Moves s r.t1 → r.t2.wraps = s.wraps + 1 → r.Occurs → r.Premises →
    latchedTime r.t4 = some ((k.toNat + 1) * 2 ^ Config.w1 + r.t2.htr.toNat)

/-- R117 (a): where the wrap seen by N2 is still pending when N3 reads OVF again, the read is short by one wrap. -/
def Obligations.UnservicedWrapGivesATornRead : Prop :=
  ∀ r : Read, BlockInv r.t1 → r.Occurs → r.NoneLost → r.t3.wraps = r.t2.wraps → r.t3.pend = true →
    r.t2.htr.toNat < Config.guardTicks →
    latchedTime r.t4 = some ((r.t2.ticks - 2 ^ Config.w1) % 2 ^ Config.wx)

/-- R101, R117 (d): a wrap that found PEND set is never counted: a read with every other wrap serviced in time is short by
`2^W1` for each wrap lost before it. -/
def Obligations.EachLostWrapShortensReads : Prop :=
  ∀ r : Read, BlockInv r.t1 → r.Occurs → r.t3.lost = r.t1.lost → r.Short →
    r.t2.wraps - r.t2.lost ≤ servedWraps r.t3 →
    (∀ k, 1 ≤ k → k * 2 ^ Config.w1 + Config.guardTicks ≤ r.t2.ticks → k - r.t2.lost ≤ servedWraps r.t1) →
    latchedTime r.t4 = some ((r.t2.ticks - r.t2.lost * 2 ^ Config.w1) % 2 ^ Config.wx)

/-! ## The end of a run, and infinite runs -/

/-- R211, in the model's form of it (log 22, DESIGN CHOICE): HALT is a step that marks the host's program as ended and leaves the
block alone; the host has no step after it; and in a state that meets the invariant any later step, a TICK or an IRQ, leaves
everything but HTR, PEND, OVF and the ghost counters. -/
def Obligations.HaltEndsTheHostsProgram : Prop :=
  (∀ s, nextAgent s = .host → s.ph = .idle → s.halted = false → nextAct s = .halt →
    step s = .next { dropAct (dropAgent s) with halted := true }) ∧
  (∀ s, nextAgent s = .host → s.ph = .idle → s.halted = true → step s = .next (dropAgent s)) ∧
  ∀ s t, BlockInv s → s.halted = true → step s = .next t →
    t = { dropAgent s with
      htr := t.htr, pend := t.pend, ovf := t.ovf, ticks := t.ticks, wraps := t.wraps, lost := t.lost }

/-- R211: a run of the host's program ends with HALT executed and PH = IDLE; its end is a good one exactly if ERR = 0; and where a
fault was recorded anywhere on the way the end satisfies no postcondition. -/
def Obligations.FaultedRunsSatisfyNoPostcondition : Prop :=
  (∀ s t, RunEnds s t → t.halted = true ∧ t.ph = .idle ∧ (GoodEnd t ↔ t.err = false)) ∧
  ∀ s u t post, Moves s u → u.err = true → RunEnds u t → ¬ Satisfies t post ∧ ¬ Ensures s post

/-- R210, R120, R181: in a fair infinite run every command in flight comes to its end, and every pending wrap is serviced while
interrupts stay enabled. -/
def Obligations.FairRunsCompleteCommandsAndServiceWraps : Prop :=
  ∀ r : InfiniteRun, Fair r →
    (∀ n, (r.state n).ph ≠ .idle → ∃ m, n ≤ m ∧ (r.state m).ph = .idle) ∧
    ∀ n, BlockInv (r.state n) → (r.state n).pend = true → (∀ m, n ≤ m → (r.state m).ie = true) →
      ∃ m, n ≤ m ∧ (r.state m).pend = false

/-- R210, R140: in a fair infinite run the counter reaches every count from the present one on, so a job that is Armed with a
deadline that time can reach becomes Due. -/
def Obligations.FairRunsReachEveryCount : Prop :=
  ∀ r : InfiniteRun, Fair r → ∀ n, BlockInv (r.state n) → (r.state n).run = true →
    (∀ k, (r.state n).ticks ≤ k → ∃ m, n ≤ m ∧ (r.state m).ticks = k) ∧
    ∀ d : Extended, d.toNat < 2 ^ Config.wx → jobState d (trueCount (r.state n)) = .armed →
      ∃ m, n ≤ m ∧ jobState d (trueCount (r.state m)) = .due
end

