-- ==== Sys2Proof/Laws/Config.lean ====
section
/-! SUPPORT. The open parameters lie in their legal range, so this hardware's configuration is one the model admits. -/

namespace Sys2Proof.Config

theorem rateMax_pos : 0 < rateMax := by decide

theorem rate_pos : 1 ≤ rate := Nat.le_add_left 1 _

theorem rate_le : rate ≤ rateMax := Nat.mod_lt rateDraw rateMax_pos

theorem guardTicks_pos : 1 ≤ guardTicks := Nat.le_add_left 1 _

theorem guardTicks_le : guardTicks ≤ 2 ^ (w1 - 1) := Nat.mod_lt guardDraw (by decide)

/-- WF5 for this hardware, whatever RATE is (R14). -/
theorem deadlines_fit : 2 ^ wx - 1 + (2 ^ ws - 1) * rate < 2 ^ we := by
  have h : (2 ^ ws - 1) * rate ≤ (2 ^ ws - 1) * rateMax := Nat.mul_le_mul_left _ rate_le
  have e : 2 ^ wx - 1 + (2 ^ ws - 1) * rateMax < 2 ^ we := by decide
  omega

/-- WF6 for this hardware, whatever RATE and LIFE are (R14). -/
theorem life_fits : rate * life < 2 ^ wx := by
  have h : life ≤ (2 ^ wx - 1) / rate := Nat.lt_succ_iff.mp (Nat.mod_lt lifeDraw (Nat.succ_pos _))
  have e : rate * ((2 ^ wx - 1) / rate) ≤ 2 ^ wx - 1 := Nat.mul_div_le _ _
  have m : rate * life ≤ rate * ((2 ^ wx - 1) / rate) := Nat.mul_le_mul_left _ h
  have p : (0 : Nat) < 2 ^ wx := by decide
  omega

theorem hw_wx : hw.wx = wx := rfl
theorem hw_we : hw.we = we := rfl
theorem hw_ws : hw.ws = ws := rfl
theorem hw_rate : hw.rate = rate := rfl
theorem hw_life : hw.life = life := rfl

/-- The model admits this hardware's configuration (R14). -/
theorem hw_meets (r : WfRule) : meets hw r = true := by
  cases r with
  | wf1 => decide
  | wf2 => exact Bool.and_eq_true_iff.mpr ⟨decide_eq_true guardTicks_pos, decide_eq_true guardTicks_le⟩
  | wf3 => exact decide_eq_true rate_pos
  | wf4 => decide
  | wf5 =>
    rw [meets, decide_eq_true_iff, hw_wx, hw_we, hw_ws, hw_rate]
    exact deadlines_fit
  | wf6 =>
    rw [meets, decide_eq_true_iff, hw_wx, hw_rate, hw_life]
    exact life_fits

theorem hw_accepted : accepted hw = .ok hw := by
  simp [accepted, broken, hw_meets]

end Sys2Proof.Config
end

