-- ==== Sys2Proof/Laws/State.lean ====
section
/-! SUPPORT. One lemma per field for each named update of the state, so that no later proof unfolds a record update. -/

namespace Sys2Proof.Machine

/-! ## `raiseFault` -/
@[simp] theorem raiseFault_htr (c : FaultCode) (s : State) : (raiseFault c s).htr = s.htr := rfl
@[simp] theorem raiseFault_pend (c : FaultCode) (s : State) : (raiseFault c s).pend = s.pend := rfl
@[simp] theorem raiseFault_run (c : FaultCode) (s : State) : (raiseFault c s).run = s.run := rfl
@[simp] theorem raiseFault_ovf (c : FaultCode) (s : State) : (raiseFault c s).ovf = s.ovf := rfl
@[simp] theorem raiseFault_inited (c : FaultCode) (s : State) : (raiseFault c s).inited = s.inited := rfl
@[simp] theorem raiseFault_ie (c : FaultCode) (s : State) : (raiseFault c s).ie = s.ie := rfl
@[simp] theorem raiseFault_d (c : FaultCode) (s : State) : (raiseFault c s).d = s.d := rfl
@[simp] theorem raiseFault_sec (c : FaultCode) (s : State) : (raiseFault c s).sec = s.sec := rfl
@[simp] theorem raiseFault_cur (c : FaultCode) (s : State) : (raiseFault c s).cur = s.cur := rfl
@[simp] theorem raiseFault_res (c : FaultCode) (s : State) : (raiseFault c s).res = s.res := rfl
@[simp] theorem raiseFault_due (c : FaultCode) (s : State) : (raiseFault c s).due = s.due := rfl
@[simp] theorem raiseFault_err (c : FaultCode) (s : State) : (raiseFault c s).err = true := rfl
@[simp] theorem raiseFault_ecode (c : FaultCode) (s : State) : (raiseFault c s).ecode = (if s.err then s.ecode else faultBits c) := rfl
@[simp] theorem raiseFault_ph (c : FaultCode) (s : State) : (raiseFault c s).ph = .idle := rfl
@[simp] theorem raiseFault_op (c : FaultCode) (s : State) : (raiseFault c s).op = s.op := rfl
@[simp] theorem raiseFault_j (c : FaultCode) (s : State) : (raiseFault c s).j = s.j := rfl
@[simp] theorem raiseFault_high (c : FaultCode) (s : State) : (raiseFault c s).high = s.high := rfl
@[simp] theorem raiseFault_low (c : FaultCode) (s : State) : (raiseFault c s).low = s.low := rfl
@[simp] theorem raiseFault_ticks (c : FaultCode) (s : State) : (raiseFault c s).ticks = s.ticks := rfl
@[simp] theorem raiseFault_wraps (c : FaultCode) (s : State) : (raiseFault c s).wraps = s.wraps := rfl
@[simp] theorem raiseFault_lost (c : FaultCode) (s : State) : (raiseFault c s).lost = s.lost := rfl
@[simp] theorem raiseFault_schedule (c : FaultCode) (s : State) : (raiseFault c s).schedule = s.schedule := rfl
@[simp] theorem raiseFault_hostQueue (c : FaultCode) (s : State) : (raiseFault c s).hostQueue = s.hostQueue := rfl
@[simp] theorem raiseFault_agentDraws (c : FaultCode) (s : State) : (raiseFault c s).agentDraws = s.agentDraws := rfl
@[simp] theorem raiseFault_actDraws (c : FaultCode) (s : State) : (raiseFault c s).actDraws = s.actDraws := rfl
@[simp] theorem raiseFault_reads (c : FaultCode) (s : State) : (raiseFault c s).reads = s.reads := rfl
@[simp] theorem raiseFault_halted (c : FaultCode) (s : State) : (raiseFault c s).halted = s.halted := rfl

/-! ## `returnValue` -/
@[simp] theorem returnValue_htr (v : Returned) (s : State) : (returnValue v s).htr = s.htr := rfl
@[simp] theorem returnValue_pend (v : Returned) (s : State) : (returnValue v s).pend = s.pend := rfl
@[simp] theorem returnValue_run (v : Returned) (s : State) : (returnValue v s).run = s.run := rfl
@[simp] theorem returnValue_ovf (v : Returned) (s : State) : (returnValue v s).ovf = s.ovf := rfl
@[simp] theorem returnValue_inited (v : Returned) (s : State) : (returnValue v s).inited = s.inited := rfl
@[simp] theorem returnValue_ie (v : Returned) (s : State) : (returnValue v s).ie = s.ie := rfl
@[simp] theorem returnValue_d (v : Returned) (s : State) : (returnValue v s).d = s.d := rfl
@[simp] theorem returnValue_sec (v : Returned) (s : State) : (returnValue v s).sec = s.sec := rfl
@[simp] theorem returnValue_cur (v : Returned) (s : State) : (returnValue v s).cur = s.cur := rfl
@[simp] theorem returnValue_res (v : Returned) (s : State) : (returnValue v s).res = s.res := rfl
@[simp] theorem returnValue_due (v : Returned) (s : State) : (returnValue v s).due = s.due := rfl
@[simp] theorem returnValue_err (v : Returned) (s : State) : (returnValue v s).err = s.err := rfl
@[simp] theorem returnValue_ecode (v : Returned) (s : State) : (returnValue v s).ecode = s.ecode := rfl
@[simp] theorem returnValue_ph (v : Returned) (s : State) : (returnValue v s).ph = s.ph := rfl
@[simp] theorem returnValue_op (v : Returned) (s : State) : (returnValue v s).op = s.op := rfl
@[simp] theorem returnValue_j (v : Returned) (s : State) : (returnValue v s).j = s.j := rfl
@[simp] theorem returnValue_high (v : Returned) (s : State) : (returnValue v s).high = s.high := rfl
@[simp] theorem returnValue_low (v : Returned) (s : State) : (returnValue v s).low = s.low := rfl
@[simp] theorem returnValue_ticks (v : Returned) (s : State) : (returnValue v s).ticks = s.ticks := rfl
@[simp] theorem returnValue_wraps (v : Returned) (s : State) : (returnValue v s).wraps = s.wraps := rfl
@[simp] theorem returnValue_lost (v : Returned) (s : State) : (returnValue v s).lost = s.lost := rfl
@[simp] theorem returnValue_schedule (v : Returned) (s : State) : (returnValue v s).schedule = s.schedule := rfl
@[simp] theorem returnValue_hostQueue (v : Returned) (s : State) : (returnValue v s).hostQueue = s.hostQueue := rfl
@[simp] theorem returnValue_agentDraws (v : Returned) (s : State) : (returnValue v s).agentDraws = s.agentDraws := rfl
@[simp] theorem returnValue_actDraws (v : Returned) (s : State) : (returnValue v s).actDraws = s.actDraws := rfl
@[simp] theorem returnValue_reads (v : Returned) (s : State) : (returnValue v s).reads = v :: s.reads := rfl
@[simp] theorem returnValue_halted (v : Returned) (s : State) : (returnValue v s).halted = s.halted := rfl

/-! ## `startRead` -/
@[simp] theorem startRead_htr (o : SeqOp) (s : State) : (startRead o s).htr = s.htr := rfl
@[simp] theorem startRead_pend (o : SeqOp) (s : State) : (startRead o s).pend = s.pend := rfl
@[simp] theorem startRead_run (o : SeqOp) (s : State) : (startRead o s).run = s.run := rfl
@[simp] theorem startRead_ovf (o : SeqOp) (s : State) : (startRead o s).ovf = s.ovf := rfl
@[simp] theorem startRead_inited (o : SeqOp) (s : State) : (startRead o s).inited = s.inited := rfl
@[simp] theorem startRead_ie (o : SeqOp) (s : State) : (startRead o s).ie = s.ie := rfl
@[simp] theorem startRead_d (o : SeqOp) (s : State) : (startRead o s).d = s.d := rfl
@[simp] theorem startRead_sec (o : SeqOp) (s : State) : (startRead o s).sec = s.sec := rfl
@[simp] theorem startRead_cur (o : SeqOp) (s : State) : (startRead o s).cur = s.cur := rfl
@[simp] theorem startRead_res (o : SeqOp) (s : State) : (startRead o s).res = s.res := rfl
@[simp] theorem startRead_due (o : SeqOp) (s : State) : (startRead o s).due = s.due := rfl
@[simp] theorem startRead_err (o : SeqOp) (s : State) : (startRead o s).err = s.err := rfl
@[simp] theorem startRead_ecode (o : SeqOp) (s : State) : (startRead o s).ecode = s.ecode := rfl
@[simp] theorem startRead_ph (o : SeqOp) (s : State) : (startRead o s).ph = .n1 := rfl
@[simp] theorem startRead_op (o : SeqOp) (s : State) : (startRead o s).op = some o := rfl
@[simp] theorem startRead_j (o : SeqOp) (s : State) : (startRead o s).j = s.j := rfl
@[simp] theorem startRead_high (o : SeqOp) (s : State) : (startRead o s).high = s.high := rfl
@[simp] theorem startRead_low (o : SeqOp) (s : State) : (startRead o s).low = s.low := rfl
@[simp] theorem startRead_ticks (o : SeqOp) (s : State) : (startRead o s).ticks = s.ticks := rfl
@[simp] theorem startRead_wraps (o : SeqOp) (s : State) : (startRead o s).wraps = s.wraps := rfl
@[simp] theorem startRead_lost (o : SeqOp) (s : State) : (startRead o s).lost = s.lost := rfl
@[simp] theorem startRead_schedule (o : SeqOp) (s : State) : (startRead o s).schedule = s.schedule := rfl
@[simp] theorem startRead_hostQueue (o : SeqOp) (s : State) : (startRead o s).hostQueue = s.hostQueue := rfl
@[simp] theorem startRead_agentDraws (o : SeqOp) (s : State) : (startRead o s).agentDraws = s.agentDraws := rfl
@[simp] theorem startRead_actDraws (o : SeqOp) (s : State) : (startRead o s).actDraws = s.actDraws := rfl
@[simp] theorem startRead_reads (o : SeqOp) (s : State) : (startRead o s).reads = s.reads := rfl
@[simp] theorem startRead_halted (o : SeqOp) (s : State) : (startRead o s).halted = s.halted := rfl

/-! ## `dropAgent` and `dropAct`: everything but the model's own record of the environment -/
@[simp] theorem dropAgent_htr (s : State) : (dropAgent s).htr = s.htr := by
  unfold dropAgent; split <;> rfl
@[simp] theorem dropAgent_pend (s : State) : (dropAgent s).pend = s.pend := by
  unfold dropAgent; split <;> rfl
@[simp] theorem dropAgent_run (s : State) : (dropAgent s).run = s.run := by
  unfold dropAgent; split <;> rfl
@[simp] theorem dropAgent_ovf (s : State) : (dropAgent s).ovf = s.ovf := by
  unfold dropAgent; split <;> rfl
@[simp] theorem dropAgent_inited (s : State) : (dropAgent s).inited = s.inited := by
  unfold dropAgent; split <;> rfl
@[simp] theorem dropAgent_ie (s : State) : (dropAgent s).ie = s.ie := by
  unfold dropAgent; split <;> rfl
@[simp] theorem dropAgent_d (s : State) : (dropAgent s).d = s.d := by
  unfold dropAgent; split <;> rfl
@[simp] theorem dropAgent_sec (s : State) : (dropAgent s).sec = s.sec := by
  unfold dropAgent; split <;> rfl
@[simp] theorem dropAgent_cur (s : State) : (dropAgent s).cur = s.cur := by
  unfold dropAgent; split <;> rfl
@[simp] theorem dropAgent_res (s : State) : (dropAgent s).res = s.res := by
  unfold dropAgent; split <;> rfl
@[simp] theorem dropAgent_due (s : State) : (dropAgent s).due = s.due := by
  unfold dropAgent; split <;> rfl
@[simp] theorem dropAgent_err (s : State) : (dropAgent s).err = s.err := by
  unfold dropAgent; split <;> rfl
@[simp] theorem dropAgent_ecode (s : State) : (dropAgent s).ecode = s.ecode := by
  unfold dropAgent; split <;> rfl
@[simp] theorem dropAgent_ph (s : State) : (dropAgent s).ph = s.ph := by
  unfold dropAgent; split <;> rfl
@[simp] theorem dropAgent_op (s : State) : (dropAgent s).op = s.op := by
  unfold dropAgent; split <;> rfl
@[simp] theorem dropAgent_j (s : State) : (dropAgent s).j = s.j := by
  unfold dropAgent; split <;> rfl
@[simp] theorem dropAgent_high (s : State) : (dropAgent s).high = s.high := by
  unfold dropAgent; split <;> rfl
@[simp] theorem dropAgent_low (s : State) : (dropAgent s).low = s.low := by
  unfold dropAgent; split <;> rfl
@[simp] theorem dropAgent_ticks (s : State) : (dropAgent s).ticks = s.ticks := by
  unfold dropAgent; split <;> rfl
@[simp] theorem dropAgent_wraps (s : State) : (dropAgent s).wraps = s.wraps := by
  unfold dropAgent; split <;> rfl
@[simp] theorem dropAgent_lost (s : State) : (dropAgent s).lost = s.lost := by
  unfold dropAgent; split <;> rfl
@[simp] theorem dropAgent_hostQueue (s : State) : (dropAgent s).hostQueue = s.hostQueue := by
  unfold dropAgent; split <;> rfl
@[simp] theorem dropAgent_actDraws (s : State) : (dropAgent s).actDraws = s.actDraws := by
  unfold dropAgent; split <;> rfl
@[simp] theorem dropAgent_reads (s : State) : (dropAgent s).reads = s.reads := by
  unfold dropAgent; split <;> rfl
@[simp] theorem dropAgent_halted (s : State) : (dropAgent s).halted = s.halted := by
  unfold dropAgent; split <;> rfl
@[simp] theorem dropAct_htr (s : State) : (dropAct s).htr = s.htr := by
  unfold dropAct; split <;> rfl
@[simp] theorem dropAct_pend (s : State) : (dropAct s).pend = s.pend := by
  unfold dropAct; split <;> rfl
@[simp] theorem dropAct_run (s : State) : (dropAct s).run = s.run := by
  unfold dropAct; split <;> rfl
@[simp] theorem dropAct_ovf (s : State) : (dropAct s).ovf = s.ovf := by
  unfold dropAct; split <;> rfl
@[simp] theorem dropAct_inited (s : State) : (dropAct s).inited = s.inited := by
  unfold dropAct; split <;> rfl
@[simp] theorem dropAct_ie (s : State) : (dropAct s).ie = s.ie := by
  unfold dropAct; split <;> rfl
@[simp] theorem dropAct_d (s : State) : (dropAct s).d = s.d := by
  unfold dropAct; split <;> rfl
@[simp] theorem dropAct_sec (s : State) : (dropAct s).sec = s.sec := by
  unfold dropAct; split <;> rfl
@[simp] theorem dropAct_cur (s : State) : (dropAct s).cur = s.cur := by
  unfold dropAct; split <;> rfl
@[simp] theorem dropAct_res (s : State) : (dropAct s).res = s.res := by
  unfold dropAct; split <;> rfl
@[simp] theorem dropAct_due (s : State) : (dropAct s).due = s.due := by
  unfold dropAct; split <;> rfl
@[simp] theorem dropAct_err (s : State) : (dropAct s).err = s.err := by
  unfold dropAct; split <;> rfl
@[simp] theorem dropAct_ecode (s : State) : (dropAct s).ecode = s.ecode := by
  unfold dropAct; split <;> rfl
@[simp] theorem dropAct_ph (s : State) : (dropAct s).ph = s.ph := by
  unfold dropAct; split <;> rfl
@[simp] theorem dropAct_op (s : State) : (dropAct s).op = s.op := by
  unfold dropAct; split <;> rfl
@[simp] theorem dropAct_j (s : State) : (dropAct s).j = s.j := by
  unfold dropAct; split <;> rfl
@[simp] theorem dropAct_high (s : State) : (dropAct s).high = s.high := by
  unfold dropAct; split <;> rfl
@[simp] theorem dropAct_low (s : State) : (dropAct s).low = s.low := by
  unfold dropAct; split <;> rfl
@[simp] theorem dropAct_ticks (s : State) : (dropAct s).ticks = s.ticks := by
  unfold dropAct; split <;> rfl
@[simp] theorem dropAct_wraps (s : State) : (dropAct s).wraps = s.wraps := by
  unfold dropAct; split <;> rfl
@[simp] theorem dropAct_lost (s : State) : (dropAct s).lost = s.lost := by
  unfold dropAct; split <;> rfl
@[simp] theorem dropAct_schedule (s : State) : (dropAct s).schedule = s.schedule := by
  unfold dropAct; split <;> rfl
@[simp] theorem dropAct_agentDraws (s : State) : (dropAct s).agentDraws = s.agentDraws := by
  unfold dropAct; split <;> rfl
@[simp] theorem dropAct_reads (s : State) : (dropAct s).reads = s.reads := by
  unfold dropAct; split <;> rfl
@[simp] theorem dropAct_halted (s : State) : (dropAct s).halted = s.halted := by
  unfold dropAct; split <;> rfl

end Sys2Proof.Machine
end

