-- ==== Sys2Proof/Laws/Ops.lean ====
section
/-! SUPPORT. What each shared operation can do, said once. -/

namespace Sys2Proof.Machine

/-! ## The host hold -/

theorem isBusy_iff (s : State) : isBusy s = true ↔ s.ph ≠ .idle := by
  unfold isBusy; split <;> simp_all

theorem isBusy_false_iff (s : State) : isBusy s = false ↔ s.ph = .idle := by
  unfold isBusy; split <;> simp_all

theorem whenIdle_of_idle {s : State} (h : s.ph = .idle) (act : State → State) : whenIdle s act = .next (act s) := by
  simp [whenIdle, (isBusy_false_iff s).mpr h]

theorem whenIdle_of_busy {s : State} (h : s.ph ≠ .idle) (act : State → State) : whenIdle s act = .next s := by
  simp [whenIdle, (isBusy_iff s).mpr h]

/-- A guarded action answers a next state always: the action's from idle, the same state while busy. -/
theorem whenIdle_cases {s t : State} {act : State → State} (h : whenIdle s act = .next t) :
    (s.ph = .idle ∧ t = act s) ∨ (s.ph ≠ .idle ∧ t = s) := by
  by_cases e : s.ph = .idle
  · rw [whenIdle_of_idle e] at h; injection h with h; exact .inl ⟨e, h.symm⟩
  · rw [whenIdle_of_busy e] at h; injection h with h; exact .inr ⟨e, h.symm⟩

/-! ## Elements that may be `⊥` -/

@[simp] theorem withValue_some {α : Type} (v : α) (c : FaultCode) (s : State) (use : α → State) :
    withValue (some v) c s use = use v := rfl

@[simp] theorem withValue_none {α : Type} (c : FaultCode) (s : State) (use : α → State) :
    withValue none c s use = raiseFault c s := rfl

theorem withValue_cases {α : Type} (x : Option α) (c : FaultCode) (s : State) (use : α → State) :
    (∃ v, x = some v ∧ withValue x c s use = use v) ∨ (x = none ∧ withValue x c s use = raiseFault c s) := by
  cases x with
  | some v => exact .inl ⟨v, rfl, rfl⟩
  | none => exact .inr ⟨rfl, rfl⟩

/-! ## Slots -/

theorem slotOk_iff (j : Slot) : slotOk j = true ↔ j.toNat < Config.nj := by simp [slotOk]

theorem readSlot_of_lt {j : Slot} {s : State} (h : j.toNat < Config.nj) : readSlot j s = some s.d[j.toNat] := by
  simp [readSlot, h]

theorem readSlot_of_not_lt {j : Slot} {s : State} (h : ¬ j.toNat < Config.nj) : readSlot j s = none := by
  simp only [readSlot, getElem?_eq_none_iff, h, not_false_eq_true]

theorem writeSlot_of_lt {j : Slot} (v : Extended) {s : State} (h : j.toNat < Config.nj) :
    writeSlot j v s = { s with d := s.d.set j.toNat v h } := by
  simp [writeSlot, h]

theorem writeSlot_of_not_lt {j : Slot} (v : Extended) {s : State} (h : ¬ j.toNat < Config.nj) :
    writeSlot j v s = raiseFault .illegalCmd s := by
  simp [writeSlot, h]

/-- A slot reads as it was written. -/
theorem readSlot_writeSlot_same {j : Slot} (v : Extended) {s : State} (h : j.toNat < Config.nj) :
    readSlot j (writeSlot j v s) = some v := by
  simp [writeSlot_of_lt v h, readSlot, h]

/-- A write leaves every other slot alone. -/
theorem readSlot_writeSlot_other {j k : Slot} (v : Extended) {s : State} (h : j ≠ k) :
    readSlot k (writeSlot j v s) = readSlot k s := by
  have hn : j.toNat ≠ k.toNat := fun e => h (BitVec.eq_of_toNat_eq e)
  by_cases hj : j.toNat < Config.nj
  · simp only [writeSlot_of_lt v hj, readSlot]
    exact Vector.getElem?_set_ne hj hn
  · simp only [writeSlot_of_not_lt v hj, readSlot, raiseFault_d]

/-! ## Values -/

/-- `(high << W1) | low = high * 2^W1 + low` (R16, R110). -/
theorem extendedTime_toNat (h : Overflow) (l : Tick) :
    (extendedTime h l).toNat = h.toNat * 2 ^ Config.w1 + l.toNat := by
  have hh := h.isLt
  have hl := l.isLt
  simp only [extendedTime, BitVec.toNat_setWidth, BitVec.toNat_append]
  rw [← Nat.shiftLeft_add_eq_or_of_lt hl, Nat.shiftLeft_eq]
  apply Nat.mod_eq_of_lt
  simp only [Config.w1, Config.w2, Config.we] at *
  omega

theorem extendedTime_lt (h : Overflow) (l : Tick) : (extendedTime h l).toNat < 2 ^ Config.wx := by
  have hh := h.isLt
  have hl := l.isLt
  rw [extendedTime_toNat]
  simp only [Config.w1, Config.w2, Config.wx] at *
  omega

@[simp] theorem durationToTicks_zero (rate : Nat) (t : Extended) : durationToTicks rate 0 t = 0 := rfl

theorem durationToTicks_of_ne {v : Seconds} (h : v ≠ 0) (rate : Nat) (t : Extended) :
    (durationToTicks rate v t).toNat = (t.toNat + v.toNat * rate) % 2 ^ Config.we := by
  have hv : v.toNat % 2 ^ Config.we = v.toNat :=
    Nat.mod_eq_of_lt (lt_of_lt_of_le v.isLt (Nat.pow_le_pow_right (by decide) (by decide)))
  rw [durationToTicks, if_neg h]
  simp [hv]

theorem isDue_iff (d c : Extended) : isDue d c = true ↔ d ≠ 0 ∧ d.toNat ≤ c.toNat := by
  simp [isDue]

theorem atWrap_iff (h : Tick) : atWrap h = true ↔ h.toNat = 2 ^ Config.w1 - 1 := by
  simp [atWrap, ← BitVec.toNat_inj]

theorem belowGuard_iff (g : Nat) (l : Tick) : belowGuard g l = true ↔ l.toNat < g := by
  simp [belowGuard]

/-! ## The agents' own steps -/

/-- Everything TICK can do (R100). -/
theorem tickStep_cases (s : State) :
    (s.run = false ∧ tickStep s = s) ∨
    (s.run = true ∧ atWrap s.htr = false ∧ tickStep s = { s with ticks := s.ticks + 1, htr := s.htr + 1 }) ∨
    (s.run = true ∧ atWrap s.htr = true ∧
      tickStep s = { s with
        ticks := s.ticks + 1
        htr := 0
        wraps := s.wraps + 1
        lost := if s.pend then s.lost + 1 else s.lost
        pend := true }) := by
  cases hr : s.run <;> cases hw : atWrap s.htr <;> simp [tickStep, hr, hw]

/-- Everything IRQ can do (R102). -/
theorem irqStep_cases (s : State) :
    ((s.pend && s.ie) = false ∧ irqStep s = s) ∨
    (s.pend = true ∧ s.ie = true ∧
      ((∃ o, s.ovf = some o ∧ irqStep s = { s with pend := false, ovf := some (o + 1) }) ∨
        (s.ovf = none ∧ irqStep s = raiseFault .preInit s))) := by
  cases hp : s.pend <;> cases hi : s.ie <;> cases ho : s.ovf <;> simp [irqStep, hp, hi, ho]

theorem raiseFault_is_a_fault (c : FaultCode) (s : State) : ∃ code, raiseFault c s = raiseFault code s := ⟨c, rfl⟩

/-- Everything a sub-step can do (R107 to R110, R132, R134): fault, or the one update of its phase. -/
theorem subStep_cases (g r : Nat) (s : State) :
    (s.ph = .idle ∧ subStep g r s = s) ∨
    (s.ph ≠ .idle ∧ ∃ code, subStep g r s = raiseFault code s) ∨
    (s.ph = .n1 ∧ s.inited = true ∧ ∃ o, s.ovf = some o ∧ subStep g r s = { s with high := some o, ph := .n2 }) ∨
    (s.ph = .n2 ∧ subStep g r s = { s with low := some s.htr, ph := .n3 }) ∨
    (s.ph = .n3 ∧ ∃ l o, s.low = some l ∧ l.toNat < g ∧ s.ovf = some o ∧
      subStep g r s = { s with high := some o, ph := .n4 }) ∨
    (s.ph = .n3 ∧ ∃ l, s.low = some l ∧ g ≤ l.toNat ∧ subStep g r s = { s with ph := .n4 }) ∨
    (s.ph = .n4 ∧ ∃ h l, s.high = some h ∧ s.low = some l ∧
      ((s.op = some .now ∧ subStep g r s = { s with cur := some (extendedTime h l), ph := .idle }) ∨
        (s.op = some .dtt ∧ ∃ v, s.sec = some v ∧
          subStep g r s = { s with res := some (durationToTicks r v (extendedTime h l)), ph := .idle }) ∨
        (s.op = some .arm ∧ ∃ v j, ∃ hj : j.toNat < Config.nj, s.sec = some v ∧ s.j = some j ∧
          subStep g r s =
            { s with d := s.d.set j.toNat (durationToTicks r v (extendedTime h l)) hj, ph := .idle }))) := by
  cases hp : s.ph with
  | idle => simp [subStep, hp]
  | n1 => cases hi : s.inited <;> cases ho : s.ovf <;> simp [raiseFault_is_a_fault, subStep, hp, subN1, hi, ho]
  | n2 => simp [subStep, hp, subN2]
  | n3 =>
    cases hl : s.low with
    | none => simp [raiseFault_is_a_fault, subStep, hp, subN3, hl]
    | some l =>
      by_cases hg : l.toNat < g
      · cases ho : s.ovf <;> simp [raiseFault_is_a_fault, subStep, hp, subN3, hl, (belowGuard_iff g l).mpr hg, ho, hg]
      · simp [subStep, hp, subN3, hl, belowGuard, hg, Nat.not_lt.mp hg]
  | n4 =>
    cases hh : s.high with
    | none => simp [raiseFault_is_a_fault, subStep, hp, subN4, hh]
    | some h =>
      cases hl : s.low with
      | none => simp [raiseFault_is_a_fault, subStep, hp, subN4, hh, hl]
      | some l =>
        cases ho : s.op with
        | none => simp [raiseFault_is_a_fault, subStep, hp, subN4, hh, hl, ho]
        | some o =>
          cases o with
          | now => simp [subStep, hp, subN4, hh, hl, ho, finishNow]
          | dtt => cases hs : s.sec <;> simp [raiseFault_is_a_fault, subStep, hp, subN4, hh, hl, ho, finishDtt, hs]
          | arm =>
            cases hJ : s.j with
            | none => simp [raiseFault_is_a_fault, subStep, hp, subN4, hh, hl, ho, finishArm, hJ]
            | some j =>
              cases hs : s.sec with
              | none => simp [raiseFault_is_a_fault, subStep, hp, subN4, hh, hl, ho, finishArm, hJ, hs]
              | some v =>
                by_cases hj : j.toNat < Config.nj
                · simp [subStep, hp, subN4, hh, hl, ho, finishArm, hJ, hs, writeSlot_of_lt _ hj]
                  exact .inr (Nat.lt_succ_iff.mp hj)
                · right; left
                  exact ⟨by simp, .illegalCmd, by
                    simp [subStep, hp, subN4, hh, hl, ho, finishArm, hJ, hs, writeSlot_of_not_lt _ hj, raiseFault]⟩

end Sys2Proof.Machine
end

