-- ==== Sys2Proof/Laws/PerInstr.lean ====
section
/-! SUPPORT. One statement made of every instruction: its encoding has the bits spec/opcode_table.json fixes for its row. -/

namespace Sys2Proof.Laws

/-- The first byte of an encoded instruction, as the opcode table numbers its bits: the command word, or the 6-bit selector. -/
def RowBits.firstByte : Encoded → BitVec 8
  | .cmd c => c
  | .irq c => c
  | .port a => (selector a).setWidth 8

/-- Mask and match of the instruction's row in spec/opcode_table.json. -/
def RowBits.row : Instr → BitVec 8 × BitVec 8
  | .init => (0xFF, 0x10)
  | .now => (0xFF, 0x20)
  | .dtt => (0xFF, 0x30)
  | .arm _ => (0xF0, 0x40)
  | .isdue _ => (0xF0, 0x50)
  | .cancel _ => (0xF0, 0x60)
  | .wrapinc => (0xFF, 0x70)
  | .wrcmd _ => (0b111111, 0b100000)
  | .wrsec _ => (0b111111, 0b100001)
  | .rdsec => (0b111111, 0b000001)
  | .rdcur => (0b111111, 0b000010)
  | .rdres => (0b111111, 0b000011)
  | .rdstat => (0b111111, 0b000100)
  | .rdd _ => (0b110000, 0b010000)

/-- The encoding of the instruction meets its row's mask and match. -/
def RowBits.Statement (i : Instr) : Prop :=
  RowBits.firstByte (encode i) &&& (RowBits.row i).1 = (RowBits.row i).2

theorem RowBits.init : RowBits.Statement .init := by unfold RowBits.Statement; decide
theorem RowBits.now : RowBits.Statement .now := by unfold RowBits.Statement; decide
theorem RowBits.dtt : RowBits.Statement .dtt := by unfold RowBits.Statement; decide
theorem RowBits.arm (j : Slot) : RowBits.Statement (.arm j) := by revert j; unfold RowBits.Statement; decide
theorem RowBits.isdue (j : Slot) : RowBits.Statement (.isdue j) := by revert j; unfold RowBits.Statement; decide
theorem RowBits.cancel (j : Slot) : RowBits.Statement (.cancel j) := by revert j; unfold RowBits.Statement; decide
theorem RowBits.wrapinc : RowBits.Statement .wrapinc := by unfold RowBits.Statement; decide
theorem RowBits.wrcmd (c : CmdWord) : RowBits.Statement (.wrcmd c) := by
  change (1#1 ++ 0#5).setWidth 8 &&& 0b111111 = 0b100000#8; decide
theorem RowBits.wrsec (v : Seconds) : RowBits.Statement (.wrsec v) := by
  change (1#1 ++ 1#5).setWidth 8 &&& 0b111111 = 0b100001#8; decide
theorem RowBits.rdsec : RowBits.Statement .rdsec := by unfold RowBits.Statement; decide
theorem RowBits.rdcur : RowBits.Statement .rdcur := by unfold RowBits.Statement; decide
theorem RowBits.rdres : RowBits.Statement .rdres := by unfold RowBits.Statement; decide
theorem RowBits.rdstat : RowBits.Statement .rdstat := by unfold RowBits.Statement; decide
theorem RowBits.rdd (j : Slot) : RowBits.Statement (.rdd j) := by revert j; unfold RowBits.Statement; decide

end Sys2Proof.Laws
end

