-- ==== Sys2Proof/Laws/Step.lean ====
section
/-! SUPPORT. What one step can do, said once: `step_cases` lists every way a step answers. -/

namespace Sys2Proof.Machine

/-! ## What an instruction does to an idle block -/

/-- The state change of a command word the host wrote (R151), taken from idle. -/
def cmdEffect : Instr → State → State
  | .init => initBlock
  | .now => startRead .now
  | .dtt => issueDtt
  | .arm j => issueArm j
  | .isdue j => compareSlot j
  | .cancel j => writeSlot j 0
  | .wrapinc => raiseFault .wrapincFromHost
  | .wrcmd _ | .wrsec _ | .rdsec | .rdcur | .rdres | .rdstat | .rdd _ => raiseFault .illegalCmd

/-- The state change of a port access, taken from idle. -/
def portEffect : Instr → State → State
  | .wrcmd c => match decodeCmd c with
    | .ok i => cmdEffect i
    | .error code => raiseFault code
  | .wrsec v => fun s => { s with sec := some v }
  | .rdsec => fun s => withValue s.sec .unwrittenRead s fun v => returnValue (.seconds v) s
  | .rdcur => fun s => withValue s.cur .unwrittenRead s fun v => returnValue (.extended v) s
  | .rdres => fun s => withValue s.res .unwrittenRead s fun v => returnValue (.extended v) s
  | .rdstat => fun s => returnValue (.status (statusWord s)) s
  | .rdd j => fun s => withValue (readSlot j s) .badPort s fun v => returnValue (.extended v) s
  | .init | .now | .dtt | .arm _ | .isdue _ | .cancel _ | .wrapinc => fun s => s

theorem performCmd_eq (i : Instr) (s : State) : performCmd i s = whenIdle s (cmdEffect i) := by
  cases i <;> rfl

theorem execWrcmd_eq (c : CmdWord) (s : State) : execWrcmd c s = whenIdle s (portEffect (.wrcmd c)) := by
  unfold execWrcmd
  cases h : decodeCmd c with
  | ok i => simp [portEffect, h, performCmd_eq]
  | error e => simp [portEffect, h]

/-! ## What decodes -/

/-- The operations a command word of the host can spell (R76). -/
def IsCommand : Instr → Prop
  | .init | .now | .dtt => True
  | .arm j | .isdue j | .cancel j => j.toNat < Config.nj
  | .wrapinc | .wrcmd _ | .wrsec _ | .rdsec | .rdcur | .rdres | .rdstat | .rdd _ => False

/-- The port accesses a selector can spell (R72). -/
def IsPortAccess : Instr → Prop
  | .wrcmd _ | .wrsec _ | .rdsec | .rdcur | .rdres | .rdstat => True
  | .rdd j => j.toNat < Config.nj
  | .init | .now | .dtt | .arm _ | .isdue _ | .cancel _ | .wrapinc => False

theorem plainCmd_ok {j : Slot} {r : Except FaultCode Instr} {i : Instr} (h : plainCmd j r = .ok i) : r = .ok i := by
  unfold plainCmd at h; split at h
  · exact h
  · cases h

theorem slotCmd_ok {n : Nat} {j : Slot} {i i' : Instr} (h : slotCmd n j i = .ok i') : j.toNat < n ∧ i = i' := by
  unfold slotCmd at h; split at h
  · injection h with h; exact ⟨by assumption, h⟩
  · cases h

theorem decodeCmd_ok {c : CmdWord} {i : Instr} (h : decodeCmd c = .ok i) : IsCommand i := by
  unfold decodeCmd decodeCmdWith at h
  split at h
  · cases plainCmd_ok h; trivial
  · cases plainCmd_ok h; trivial
  · cases plainCmd_ok h; trivial
  · obtain ⟨hj, rfl⟩ := slotCmd_ok h; exact hj
  · obtain ⟨hj, rfl⟩ := slotCmd_ok h; exact hj
  · obtain ⟨hj, rfl⟩ := slotCmd_ok h; exact hj
  · cases plainCmd_ok h
  · cases h

theorem decodeAccess_ok {a : Config.Access} {i : Instr} (h : decodeAccess a = .ok i) : IsPortAccess i := by
  unfold decodeAccess decodeAccessWith at h
  split at h
  · unfold decodeRead at h
    split at h
    · cases h; trivial
    · cases h; trivial
    · cases h; trivial
    · cases h; trivial
    · split at h
      · rename_i hn
        cases h
        have := a.port.isLt
        simp only [IsPortAccess, BitVec.extractLsb'_toNat, Nat.shiftRight_zero]
        omega
      · cases h
  · unfold decodeWrite at h
    split at h
    · cases h; trivial
    · cases h; trivial
    · cases h

theorem exec_port {i : Instr} (h : IsPortAccess i) (s : State) : exec i s = whenIdle s (portEffect i) := by
  cases i with
  | wrcmd c => exact execWrcmd_eq c s
  | wrsec _ | rdsec | rdcur | rdres | rdstat | rdd _ => rfl
  | init | now | dtt | arm _ | isdue _ | cancel _ | wrapinc => exact h.elim

theorem exec_command {i : Instr} (h : IsCommand i) (s : State) : exec i s = whenIdle s (cmdEffect i) := by
  cases i with
  | init | now | dtt | arm _ | isdue _ | cancel _ => rfl
  | wrapinc | wrcmd _ | wrsec _ | rdsec | rdcur | rdres | rdstat | rdd _ => exact h.elim

/-! ## What they do -/

/-- Everything a command can do from idle (R105, R106, R132, R133, R137, R138): fault, or its one update. -/
theorem cmdEffect_cases {i : Instr} (h : IsCommand i) (s : State) :
    (∃ code, cmdEffect i s = raiseFault code s) ∨
    (i = .init ∧ s.inited = false ∧ s.ie = false ∧
      cmdEffect i s = { s with
        htr := 0, ovf := some 0, pend := false, run := true, inited := true, ticks := 0, wraps := 0, lost := 0 }) ∨
    (i = .now ∧ cmdEffect i s = { s with op := some .now, ph := .n1 }) ∨
    (i = .dtt ∧ s.sec = some 0 ∧ cmdEffect i s = { s with res := some 0 }) ∨
    (i = .dtt ∧ (∃ v, s.sec = some v ∧ v ≠ 0) ∧ cmdEffect i s = { s with op := some .dtt, ph := .n1 }) ∨
    (∃ j, ∃ hj : j.toNat < Config.nj, (i = .arm j ∧ s.sec = some 0 ∨ i = .cancel j) ∧
      cmdEffect i s = { s with d := s.d.set j.toNat 0 hj }) ∨
    (∃ j, j.toNat < Config.nj ∧ i = .arm j ∧ (∃ v, s.sec = some v ∧ v ≠ 0) ∧
      cmdEffect i s = { s with op := some .arm, j := some j, ph := .n1 }) ∨
    (∃ j, ∃ hj : j.toNat < Config.nj, i = .isdue j ∧ ∃ c, s.cur = some c ∧
      cmdEffect i s = { s with due := isDue s.d[j.toNat] c }) := by
  cases i with
  | init => cases hi : s.inited <;> cases he : s.ie <;> simp [cmdEffect, initBlock, hi, he, raiseFault_is_a_fault]
  | now => simp [cmdEffect, startRead]
  | dtt =>
    cases hs : s.sec with
    | none => simp [cmdEffect, issueDtt, hs, raiseFault_is_a_fault]
    | some v => by_cases hv : v = 0#Config.ws <;> simp [cmdEffect, issueDtt, hs, hv, startRead]
  | arm j =>
    have hj : j.toNat < Config.nj := h
    cases hs : s.sec with
    | none => simp [cmdEffect, issueArm, withSlot, (slotOk_iff j).mpr hj, hs, raiseFault_is_a_fault]
    | some v =>
      by_cases hv : v = 0#Config.ws
      · refine .inr (.inr (.inr (.inr (.inr (.inl ⟨j, hj, .inl ⟨rfl, by rw [hv]; rfl⟩, ?_⟩)))))
        simp [cmdEffect, issueArm, withSlot, (slotOk_iff j).mpr hj, hs, hv, writeSlot_of_lt _ hj]
      · refine .inr (.inr (.inr (.inr (.inr (.inr (.inl ⟨j, hj, rfl, ⟨v, rfl, hv⟩, ?_⟩))))))
        simp [cmdEffect, issueArm, withSlot, (slotOk_iff j).mpr hj, hs, hv, startRead]
  | isdue j =>
    have hj : j.toNat < Config.nj := h
    cases hc : s.cur with
    | none => simp [cmdEffect, compareSlot, readSlot_of_lt hj, hc, raiseFault_is_a_fault]
    | some c =>
      refine .inr (.inr (.inr (.inr (.inr (.inr (.inr ⟨j, hj, rfl, c, rfl, ?_⟩))))))
      simp [cmdEffect, compareSlot, readSlot_of_lt hj, hc]
  | cancel j =>
    have hj : j.toNat < Config.nj := h
    exact .inr (.inr (.inr (.inr (.inr (.inl ⟨j, hj, .inr rfl, writeSlot_of_lt _ hj⟩)))))
  | wrapinc | wrcmd _ | wrsec _ | rdsec | rdcur | rdres | rdstat | rdd _ => exact h.elim

/-- Everything a port access can do from idle (R151 to R157): fault, perform a command, write SEC, or return a value. -/
theorem portEffect_cases {i : Instr} (h : IsPortAccess i) (s : State) :
    (∃ code, portEffect i s = raiseFault code s) ∨
    (∃ c i', i = .wrcmd c ∧ decodeCmd c = .ok i' ∧ portEffect i s = cmdEffect i' s) ∨
    (∃ v, i = .wrsec v ∧ portEffect i s = { s with sec := some v }) ∨
    (∃ v, portEffect i s = { s with reads := v :: s.reads }) := by
  cases i with
  | wrcmd c =>
    cases hd : decodeCmd c with
    | ok i' => exact .inr (.inl ⟨c, i', rfl, hd, by simp [portEffect, hd]⟩)
    | error e => exact .inl ⟨e, by simp [portEffect, hd]⟩
  | wrsec v => exact .inr (.inr (.inl ⟨v, rfl, rfl⟩))
  | rdsec =>
    cases hs : s.sec with
    | none => simp [portEffect, hs, raiseFault_is_a_fault]
    | some v => exact .inr (.inr (.inr ⟨.seconds v, by simp [portEffect, hs, returnValue]⟩))
  | rdcur =>
    cases hs : s.cur with
    | none => simp [portEffect, hs, raiseFault_is_a_fault]
    | some v => exact .inr (.inr (.inr ⟨.extended v, by simp [portEffect, hs, returnValue]⟩))
  | rdres =>
    cases hs : s.res with
    | none => simp [portEffect, hs, raiseFault_is_a_fault]
    | some v => exact .inr (.inr (.inr ⟨.extended v, by simp [portEffect, hs, returnValue]⟩))
  | rdstat => exact .inr (.inr (.inr ⟨.status (statusWord s), rfl⟩))
  | rdd j =>
    have hj : j.toNat < Config.nj := h
    exact .inr (.inr (.inr ⟨.extended s.d[j.toNat], by simp [portEffect, readSlot_of_lt hj, returnValue]⟩))
  | init | now | dtt | arm _ | isdue _ | cancel _ | wrapinc => exact h.elim

/-! ## The agents -/

@[simp] theorem nextAct_dropAgent (s : State) : nextAct (dropAgent s) = nextAct s := by
  simp [nextAct]

@[simp] theorem isBusy_dropAgent (s : State) : isBusy (dropAgent s) = isBusy s := by
  simp [isBusy]

theorem step_tick {s : State} (h : nextAgent s = .tick) : step s = .next (tickStep (dropAgent s)) := by
  simp [step, h]

theorem step_irq {s : State} (h : nextAgent s = .irq) : step s = .next (irqStep (dropAgent s)) := by
  simp [step, h, exec, execWrapinc]

theorem step_host_busy {s : State} (h : nextAgent s = .host) (b : s.ph ≠ .idle) :
    step s = .next (subStep Config.guardTicks Config.rate (dropAgent s)) := by
  simp [step, h, hostStep, (isBusy_iff s).mpr b]

/-- The HOST agent is next and takes an action up: the sequencer is idle (R150) and the host's program has not ended (R211). -/
def TakesAction (s : State) : Prop := nextAgent s = .host ∧ s.ph = .idle ∧ s.halted = false

theorem step_host_idle {s : State} (h : TakesAction s) : step s = hostAction (nextAct s) (dropAct (dropAgent s)) := by
  obtain ⟨ha, hp, hh⟩ := h
  simp [step, ha, hostStep, (isBusy_false_iff s).mpr hp, hh]

theorem step_host_halted {s : State} (h : nextAgent s = .host) (b : s.ph = .idle) (hh : s.halted = true) :
    step s = .next (dropAgent s) := by
  simp [step, h, hostStep, (isBusy_false_iff s).mpr b, hh]

/-- The state the HOST agent's action starts from: the choices are taken, the block is as it was. -/
def taken (s : State) : State := dropAct (dropAgent s)

theorem taken_ph (s : State) : (taken s).ph = s.ph := by simp [taken]

/-- Every way a step can answer a next state. -/
theorem step_cases {s t : State} (h : step s = .next t) :
    (nextAgent s = .tick ∧ t = tickStep (dropAgent s)) ∨
    (nextAgent s = .irq ∧ t = irqStep (dropAgent s)) ∨
    (nextAgent s = .host ∧ s.ph ≠ .idle ∧ t = subStep Config.guardTicks Config.rate (dropAgent s)) ∨
    (nextAgent s = .host ∧ s.ph = .idle ∧ s.halted = true ∧ t = dropAgent s) ∨
    (TakesAction s ∧ ∃ b, nextAct s = .setie b ∧ t = { taken s with ie := b }) ∨
    (TakesAction s ∧ nextAct s = .halt ∧ t = { taken s with halted := true }) ∨
    (TakesAction s ∧ ∃ a, nextAct s = .access a ∧
      ((∃ i, decodeAccess a = .ok i ∧ t = portEffect i (taken s)) ∨
        ∃ code, decodeAccess a = .error code ∧ t = raiseFault code (taken s))) := by
  cases ha : nextAgent s with
  | tick => rw [step_tick ha] at h; injection h with h; simp [h]
  | irq => rw [step_irq ha] at h; injection h with h; simp [h]
  | host =>
    by_cases hp : s.ph = .idle
    · cases hh : s.halted with
      | true => rw [step_host_halted ha hp hh] at h; injection h with h; simp [hp, h]
      | false =>
        have ht : TakesAction s := ⟨ha, hp, hh⟩
        rw [step_host_idle ht] at h
        have hi : (dropAct (dropAgent s)).ph = .idle := by simp [hp]
        cases hx : nextAct s with
        | setie b =>
          simp only [hx, hostAction, setInterruptEnable, whenIdle_of_idle hi] at h
          injection h with h
          simp [ht, hp, taken, ← h]
        | halt =>
          simp only [hx, hostAction, haltHost, whenIdle_of_idle hi] at h
          injection h with h
          simp [ht, hp, taken, ← h]
        | access a =>
          cases hd : decodeAccess a with
          | ok i =>
            simp only [hx, hostAction, hd, exec_port (decodeAccess_ok hd), whenIdle_of_idle hi] at h
            injection h with h
            simp [ht, hp, taken, hd, ← h]
          | error e =>
            simp only [hx, hostAction, hd, reservedAccess, whenIdle_of_idle hi] at h
            injection h with h
            simp [ht, hp, taken, hd, ← h]
    · rw [step_host_busy ha hp] at h; injection h with h; simp [hp, h]

/-- The host's write of command word `c` to port CMD is what it does next. -/
def Issues (s : State) (c : CmdWord) : Prop :=
  TakesAction s ∧ ∃ a, nextAct s = .access a ∧ decodeAccess a = .ok (.wrcmd c)

/-- To show something of every state a step answers, show it of each update a step can make: the holds, TICK's two, the IRQ's,
the faults, the sub-steps, and the host's actions. -/
theorem step_elim {s t : State} {Q : State → Prop} (h : step s = .next t)
    (holds : nextAgent s ≠ .host ∨ s.ph = .idle ∧ s.halted = true → Q (dropAgent s))
    (tick : nextAgent s = .tick → s.run = true → atWrap s.htr = false →
      Q { dropAgent s with ticks := s.ticks + 1, htr := s.htr + 1 })
    (wrap : nextAgent s = .tick → s.run = true → atWrap s.htr = true →
      Q { dropAgent s with
        ticks := s.ticks + 1
        htr := 0
        wraps := s.wraps + 1
        lost := if s.pend then s.lost + 1 else s.lost
        pend := true })
    (irq : nextAgent s = .irq → s.pend = true → s.ie = true → ∀ o, s.ovf = some o →
      Q { dropAgent s with pend := false, ovf := some (o + 1) })
    (irqFault : nextAgent s = .irq → s.pend = true → s.ie = true → s.ovf = none →
      Q (raiseFault .preInit (dropAgent s)))
    (subFault : nextAgent s = .host → s.ph ≠ .idle → ∀ code, Q (raiseFault code (dropAgent s)))
    (n1 : nextAgent s = .host → s.ph = .n1 → s.inited = true → ∀ o, s.ovf = some o →
      Q { dropAgent s with high := some o, ph := .n2 })
    (n2 : nextAgent s = .host → s.ph = .n2 → Q { dropAgent s with low := some s.htr, ph := .n3 })
    (n3reread : nextAgent s = .host → s.ph = .n3 → ∀ l o, s.low = some l → l.toNat < Config.guardTicks →
      s.ovf = some o → Q { dropAgent s with high := some o, ph := .n4 })
    (n3keep : nextAgent s = .host → s.ph = .n3 → ∀ l, s.low = some l → Config.guardTicks ≤ l.toNat →
      Q { dropAgent s with ph := .n4 })
    (n4now : nextAgent s = .host → s.ph = .n4 → s.op = some .now → ∀ h l, s.high = some h → s.low = some l →
      Q { dropAgent s with cur := some (extendedTime h l), ph := .idle })
    (n4dtt : nextAgent s = .host → s.ph = .n4 → s.op = some .dtt → ∀ h l v, s.high = some h → s.low = some l →
      s.sec = some v →
      Q { dropAgent s with res := some (durationToTicks Config.rate v (extendedTime h l)), ph := .idle })
    (n4arm : nextAgent s = .host → s.ph = .n4 → s.op = some .arm → ∀ h l v j (hj : j.toNat < Config.nj),
      s.high = some h → s.low = some l → s.sec = some v → s.j = some j →
      Q { dropAgent s with
        d := s.d.set j.toNat (durationToTicks Config.rate v (extendedTime h l)) hj, ph := .idle })
    (setie : TakesAction s → ∀ b, nextAct s = .setie b → Q { taken s with ie := b })
    (halt : TakesAction s → nextAct s = .halt → Q { taken s with halted := true })
    (hostFault : TakesAction s → ∀ code, Q (raiseFault code (taken s)))
    (wrsec : TakesAction s → ∀ v, Q { taken s with sec := some v })
    (reads : TakesAction s → ∀ v, Q { taken s with reads := v :: s.reads })
    (init : ∀ c, Issues s c → decodeCmd c = .ok .init → s.inited = false → s.ie = false →
      Q { taken s with
        htr := 0, ovf := some 0, pend := false, run := true, inited := true, ticks := 0, wraps := 0, lost := 0 })
    (now : ∀ c, Issues s c → decodeCmd c = .ok .now → Q { taken s with op := some .now, ph := .n1 })
    (dttZero : ∀ c, Issues s c → decodeCmd c = .ok .dtt → s.sec = some 0 → Q { taken s with res := some 0 })
    (dtt : ∀ c, Issues s c → decodeCmd c = .ok .dtt → (∃ v, s.sec = some v ∧ v ≠ 0) →
      Q { taken s with op := some .dtt, ph := .n1 })
    (clear : ∀ c, Issues s c → ∀ j (hj : j.toNat < Config.nj),
      decodeCmd c = .ok (.arm j) ∧ s.sec = some 0 ∨ decodeCmd c = .ok (.cancel j) →
      Q { taken s with d := s.d.set j.toNat 0 hj })
    (arm : ∀ c, Issues s c → ∀ j, j.toNat < Config.nj → decodeCmd c = .ok (.arm j) →
      (∃ v, s.sec = some v ∧ v ≠ 0) → Q { taken s with op := some .arm, j := some j, ph := .n1 })
    (isdue : ∀ c, Issues s c → ∀ j (hj : j.toNat < Config.nj), decodeCmd c = .ok (.isdue j) → ∀ cur,
      s.cur = some cur → Q { taken s with due := isDue s.d[j.toNat] cur }) :
    Q t := by
  rcases step_cases h with ⟨ha, rfl⟩ | ⟨ha, rfl⟩ | ⟨ha, hp, rfl⟩ | ⟨ha, hp, hh, rfl⟩ |
      ⟨ht, b, hx, rfl⟩ | ⟨ht, hx, rfl⟩ | ⟨ht, a, hx, hd⟩
  · rcases tickStep_cases (dropAgent s) with ⟨_, e⟩ | ⟨hr, hw, e⟩ | ⟨hr, hw, e⟩ <;> rw [e]
    · exact holds (.inl (by simp [ha]))
    · simpa using tick ha (by simpa using hr) (by simpa using hw)
    · simpa using wrap ha (by simpa using hr) (by simpa using hw)
  · rcases irqStep_cases (dropAgent s) with ⟨_, e⟩ | ⟨hp, hi, ⟨o, ho, e⟩ | ⟨ho, e⟩⟩ <;> rw [e]
    · exact holds (.inl (by simp [ha]))
    · exact irq ha (by simpa using hp) (by simpa using hi) o (by simpa using ho)
    · exact irqFault ha (by simpa using hp) (by simpa using hi) (by simpa using ho)
  · have hp' : (dropAgent s).ph ≠ .idle := by simpa using hp
    rcases subStep_cases Config.guardTicks Config.rate (dropAgent s) with
      ⟨e, _⟩ | ⟨_, c, e⟩ | ⟨p, hi, o, ho, e⟩ | ⟨p, e⟩ | ⟨p, l, o, hl, hg, ho, e⟩ | ⟨p, l, hl, hg, e⟩ |
        ⟨p, hh, l, h1, h2, ⟨h3, e⟩ | ⟨h3, v, h4, e⟩ | ⟨h3, v, j, hj, h4, h5, e⟩⟩
    · exact absurd e hp'
    all_goals rw [e]
    · exact subFault ha hp c
    · exact n1 ha (by simpa using p) (by simpa using hi) o (by simpa using ho)
    · simpa using n2 ha (by simpa using p)
    · exact n3reread ha (by simpa using p) l o (by simpa using hl) hg (by simpa using ho)
    · exact n3keep ha (by simpa using p) l (by simpa using hl) hg
    · exact n4now ha (by simpa using p) (by simpa using h3) hh l (by simpa using h1) (by simpa using h2)
    · exact n4dtt ha (by simpa using p) (by simpa using h3) hh l v (by simpa using h1) (by simpa using h2) (by simpa using h4)
    · simpa using n4arm ha (by simpa using p) (by simpa using h3) hh l v j hj (by simpa using h1) (by simpa using h2)
        (by simpa using h4) (by simpa using h5)
  · exact holds (.inr ⟨hp, hh⟩)
  · exact setie ht b hx
  · exact halt ht hx
  · rcases hd with ⟨i, hd, rfl⟩ | ⟨c, _, rfl⟩
    · rcases portEffect_cases (decodeAccess_ok hd) (taken s) with ⟨c, e⟩ | ⟨c, i', rfl, hc, e⟩ | ⟨v, _, e⟩ | ⟨v, e⟩
      all_goals rw [e]
      · exact hostFault ht c
      · have hI : Issues s c := ⟨ht, a, hx, hd⟩
        rcases cmdEffect_cases (decodeCmd_ok hc) (taken s) with
          ⟨code, e⟩ | ⟨rfl, h1, h2, e⟩ | ⟨rfl, e⟩ | ⟨rfl, h1, e⟩ | ⟨rfl, h1, e⟩ | ⟨j, hj, h1, e⟩ |
            ⟨j, hj, rfl, h1, e⟩ | ⟨j, hj, rfl, cur, h1, e⟩
        all_goals rw [e]
        · exact hostFault ht code
        · exact init c hI hc (by simpa [taken] using h1) (by simpa [taken] using h2)
        · exact now c hI hc
        · exact dttZero c hI hc (by simpa [taken] using h1)
        · exact dtt c hI hc (by simpa [taken] using h1)
        · have h1' : decodeCmd c = .ok (.arm j) ∧ s.sec = some 0 ∨ decodeCmd c = .ok (.cancel j) := by
            rcases h1 with ⟨rfl, h1⟩ | rfl
            · exact .inl ⟨hc, by simpa [taken] using h1⟩
            · exact .inr hc
          simpa [taken] using clear c hI j hj h1'
        · exact arm c hI j hj hc (by simpa [taken] using h1)
        · simpa [taken] using isdue c hI j hj hc cur (by simpa [taken] using h1)
      · exact wrsec ht v
      · simpa [taken] using reads ht v
    · exact hostFault ht c

end Sys2Proof.Machine
end

