-- ==== Sys2Proof/Tests/Slice0.lean ====
section
/-! SUPPORT. Tests: words and results written out from spec/, and a witness for the hypotheses of every obligation that has some.
An expected result names its vector V<n> of 95_test_vectors.md, with RATE = 7812 and GUARD = 16 where a vector uses them. -/

namespace Sys2Proof.Tests

open Sys2Proof.Machine Sys2Proof.Safety

/-- The state an answer leads to. -/
def after : Answer → Option State
  | .next s => some s
  | .fault _ => none
  | .refused _ => none

/-- A field of the state an instruction leads to. -/
def got {α : Type} (i : Instr) (s : State) (f : State → α) : Option α := (after (exec i s)).map f

/-- A field of the state a step leads to. -/
def stepped {α : Type} (s : State) (f : State → α) : Option α := (after (step s)).map f

/-- INIT done, with these values of OVF and HTR and the ghost counters that belong to them. -/
def running (ovf : Overflow) (htr : Tick) : State :=
  { State.reset with
    run := true, inited := true, ovf := some ovf, htr := htr, wraps := ovf.toNat
    ticks := ovf.toNat * 65536 + htr.toNat }

/-- A running block with interrupts enabled and a read in flight at phase `p`. -/
def reading (o : SeqOp) (p : Phase) (ovf : Overflow) (htr : Tick) : State :=
  { running ovf htr with ie := true, op := some o, ph := p }

/-! ## Well-formedness: each check refuses an ill-formed term -/

theorem test_wf_arm : (Instr.arm 2).wellFormed = false ∧ (Instr.arm 1).wellFormed = true := by decide
theorem test_wf_isdue : (Instr.isdue 3).wellFormed = false := by decide
theorem test_wf_cancel : (Instr.cancel 15).wellFormed = false := by decide
theorem test_wf_rdd : (Instr.rdd 2).wellFormed = false := by decide

/-- The parameters the vectors of 95_test_vectors.md use, with a service life of 100 years. -/
def vectorParams : Config.Params :=
  { w1 := 16, w2 := 32, we := 64, ws := 32, rate := 7812, guardTicks := 16, nj := 2, life := 3153600000 }

theorem test_wf_vectors_admitted : Config.broken vectorParams = [] := by decide
theorem test_wf1_refused : Config.broken { vectorParams with we := 47 } = [.wf1, .wf5] := by decide
theorem test_wf2_refused : Config.broken { vectorParams with guardTicks := 32769 } = [.wf2] := by decide
theorem test_wf3_refused : Config.broken { vectorParams with rate := 0 } = [.wf3] := by decide
theorem test_wf4_refused : Config.broken { vectorParams with nj := 17 } = [.wf4] := by decide
theorem test_wf5_refused : Config.broken { vectorParams with rate := 4294967296, life := 1 } = [.wf5] := by decide
/-- R14: WF6 holds up to `2^48 / 7812 = 36031103009` seconds, rounded down. -/
theorem test_wf6_refused : Config.broken { vectorParams with life := 36031103009 + 1 } = [.wf6] ∧
    Config.broken { vectorParams with life := 36031103009 } = [] := by decide

/-- R2: "for this hardware `XTC-16.32.64-2`". -/
theorem test_identity : Config.identity vectorParams = "XTC-16.32.64-2" := by
  simp [Config.identity, vectorParams, Nat.repr, Nat.toDigits, Nat.toDigitsCore, Nat.digitChar]

/-! ## Decoding: words written out from 30_encoding.md R71, R72, R76 -/

theorem test_decode_init : decode (.cmd 0b00010000) = .ok .init := by decide
theorem test_decode_now : decode (.cmd 0b00100000) = .ok .now := by decide
theorem test_decode_dtt : decode (.cmd 0b00110000) = .ok .dtt := by decide
theorem test_decode_arm : decode (.cmd 0b01000001) = .ok (.arm 1) := by decide
theorem test_decode_isdue : decode (.cmd 0b01010001) = .ok (.isdue 1) := by decide
theorem test_decode_cancel : decode (.cmd 0b01100001) = .ok (.cancel 1) := by decide
theorem test_decode_wrapinc : decode (.irq 0b01110000) = .ok .wrapinc := by decide
theorem test_decode_wrcmd :
    decode (.port { dir := .write, port := 0b00000, data := 0x85 }) = .ok (.wrcmd 0x85) := by decide
theorem test_decode_wrsec :
    decode (.port { dir := .write, port := 0b00001, data := 60 }) = .ok (.wrsec 60) := by decide
theorem test_decode_rdsec : decode (.port { dir := .read, port := 0b00001, data := 0 }) = .ok .rdsec := by decide
theorem test_decode_rdcur : decode (.port { dir := .read, port := 0b00010, data := 0 }) = .ok .rdcur := by decide
theorem test_decode_rdres : decode (.port { dir := .read, port := 0b00011, data := 0 }) = .ok .rdres := by decide
theorem test_decode_rdstat : decode (.port { dir := .read, port := 0b00100, data := 0 }) = .ok .rdstat := by decide
theorem test_decode_rdd : decode (.port { dir := .read, port := 0b10001, data := 0 }) = .ok (.rdd 1) := by decide

/-- V24, V52, V72, 95_test_vectors.md section 2.9: reserved words are refused by name. -/
theorem test_decode_illegal : decode (.cmd 0x11) = .error .illegalCmd ∧ decode (.cmd 0x42) = .error .illegalCmd ∧
    decode (.cmd 0x6F) = .error .illegalCmd ∧ decode (.cmd 0x71) = .error .illegalCmd ∧
    decode (.cmd 0x70) = .error .wrapincFromHost := by decide

/-- V90 to V94: reserved selectors. -/
theorem test_decode_reserved_ports :
    decode (.port { dir := .read, port := 18, data := 0 }) = .error .badPort ∧
    decode (.port { dir := .read, port := 0, data := 0 }) = .error .badPort ∧
    decode (.port { dir := .read, port := 5, data := 0 }) = .error .badPort ∧
    decode (.port { dir := .write, port := 2, data := 0 }) = .error .badPort ∧
    decode (.port { dir := .write, port := 16, data := 0 }) = .error .badPort := by decide

/-- Section 2.9: "With `NJ = 16` ... (51 legal words)", and 9 for this hardware. -/
theorem test_decode_legal_counts :
    ((List.range 256).filter fun c => (decodeCmdWith 16 (BitVec.ofNat 8 c)).toOption.isSome).length = 51 ∧
    ((List.range 256).filter fun c => (decodeCmdWith 2 (BitVec.ofNat 8 c)).toOption.isSome).length = 9 := by decide

/-- The opcode table's words: command words first, selectors where no command is spelled (log 15). -/
theorem test_table_words :
    decodeTableWord 8 0x10 = some .init ∧ decodeTableWord 8 0x40 = some (.arm 0) ∧
    decodeTableWord 8 0x70 = some .wrapinc ∧ decodeTableWord 8 0x21 = some (.wrsec 0) ∧
    decodeTableWord 8 0x04 = some .rdstat ∧ decodeTableWord 6 0x20 = some (.wrcmd 0) ∧
    decodeTableWord 6 0x10 = some (.rdd 0) ∧ decodeTableWord 8 0x80 = none := by decide

/-- A table word placed after reset runs as the next step. -/
theorem test_fetch_word :
    stepped (State.reset.withFetchWord 8 0x10) (·.inited) = some true ∧
    stepped (State.reset.withFetchWord 8 0x21) (·.sec) = some (some 0) ∧
    stepped (State.reset.withFetchWord 8 0x04) (·.reads) = some [.status 0] := by decide

/-- R80: `POLL 1` is `NOW ; ISDUE 1`, that is writes of 0x20 and 0x51 to port 0. -/
theorem test_expand_poll : expand (.poll 1) =
    [.access { dir := .write, port := 0, data := 0x20 }, .access { dir := .write, port := 0, data := 0x51 }] := by decide

/-! ## TICK and the interrupt -/

/-- V11. -/
theorem test_tick_wraps :
    stepped { running 0 0xFFFF with schedule := [.tick] } (fun t => (t.htr, t.pend, t.wraps)) = some (0, true, 1) := by
  decide

/-- V12: a lost wrap. -/
theorem test_tick_loses_wrap :
    stepped { running 0 0xFFFF with pend := true, schedule := [.tick] } (fun t => (t.htr, t.pend, t.lost)) =
      some (0, true, 1) := by decide

/-- V16. -/
theorem test_wrapinc_wraps :
    got .wrapinc { running 0xFFFFFFFF 0 with pend := true, ie := true } (fun t => (t.ovf, t.pend)) =
      some (some 0, false) := by decide

/-- V17: not enabled. -/
theorem test_wrapinc_masked :
    got .wrapinc { running 5 0 with pend := true } (fun t => (t.ovf, t.pend)) = some (some 5, true) := by decide

/-! ## Commands -/

/-- V20: STATUS = 0x0028. -/
theorem test_init : got .init State.reset statusWord = some 0x0028 := by decide

/-- V23: REINIT before INIT_WITH_IE. -/
theorem test_init_twice : got .init { running 0 0 with ie := true } statusWord = some 0x036C := by decide

/-- R106's example. -/
theorem test_now_issue : got .now (running 3 0x1234) (fun t => (t.ph, t.op)) = some (.n1, some .now) := by decide

/-- V35: a read before INIT faults at N1. -/
theorem test_now_before_init :
    stepped { State.reset with ph := .n1, op := some .now, schedule := [.host] } statusWord = some 0x0504 := by decide

/-- V42: zero seconds before INIT. -/
theorem test_dtt_zero : got .dtt { State.reset with sec := some 0 } (fun t => (t.res, t.err)) = some (some 0, false) := by
  decide

/-- V44. -/
theorem test_dtt_unwritten : got .dtt State.reset (fun t => (t.err, t.ecode)) = some (true, 6) := by decide

/-- V51. -/
theorem test_arm_zero :
    got (.arm 0) { running 0 0 with sec := some 0, d := #v[468720, 7] } (·.d) = some #v[0, 7] := by decide

/-- V52: the fault is 1 although SEC is unwritten. -/
theorem test_arm_missing_slot : got (.arm 2) State.reset (fun t => (t.err, t.ecode)) = some (true, 1) := by decide

/-- V62, V63. -/
theorem test_isdue_edge :
    got (.isdue 0) { running 0 0 with d := #v[468720, 0], cur := some 468719 } (·.due) = some false ∧
    got (.isdue 0) { running 0 0 with d := #v[468720, 0], cur := some 468720 } (·.due) = some true := by decide

/-- Section 2.7: not a signed compare, and the zero sentinel (V61). -/
theorem test_isdue_unsigned : isDue 0x8000000000000000 0x7FFFFFFFFFFFFFFF = false ∧ isDue 0xFFFFFFFFFFFFFFFF 0xFFFFFFFFFFFF = false ∧
    isDue 1 281474976710655 = true ∧ isDue 0 281474976710655 = false := by decide

/-- V70. -/
theorem test_cancel :
    got (.cancel 0) { running 0 0 with d := #v[468720, 0], due := true } (fun t => (t.d, t.due)) =
      some (#v[0, 0], true) := by decide

/-! ## Sub-steps, with GUARD = 16 and RATE = 7812 -/

/-- V3: the re-read happens at GUARD - 1 and not at GUARD. -/
theorem test_guard_edge :
    (subStep 16 7812 { reading .now .n3 4 0 with high := some 3, low := some 15 }).high = some 4 ∧
    (subStep 16 7812 { reading .now .n3 4 0 with high := some 3, low := some 16 }).high = some 3 := by decide

/-- V32: the largest read. -/
theorem test_now_largest :
    (subStep 16 7812 { reading .now .n4 0 0 with high := some 0xFFFFFFFF, low := some 0xFFFF }).cur =
      some 281474976710655 := by decide

/-- V45. -/
theorem test_dtt_largest :
    (subStep 16 7812 { reading .dtt .n4 0 0 with
      high := some 0xFFFFFFFF, low := some 0xFFFF, sec := some 4294967295 }).res = some 0x00011E83FFFFE17B := by decide

/-- V50: `T = 468720` is HIGH = 7, LOW = 9968; CUR is not written. -/
theorem test_arm_deadline :
    (fun t => (t.d, t.cur)) (subStep 16 7812 { reading .arm .n4 7 9968 with
      high := some 7, low := some 9968, sec := some 10, j := some 1 }) = (#v[0, 546840], none) := by decide

/-! ## Port accesses -/

/-- V19: the host's 0x70. -/
theorem test_wrcmd_wrapinc :
    got (.wrcmd 0x70) { running 5 0 with pend := true, ie := true } (fun t => (t.ecode, t.ovf, t.pend)) =
      some (2, some 5, true) := by decide

/-- V84. -/
theorem test_wrcmd_reserved : got (.wrcmd 0x85) { running 0 0 with ie := true } statusWord = some 0x016C := by decide

/-- V85. -/
theorem test_wrsec : got (.wrsec 60) State.reset (·.sec) = some (some 60) := by decide
theorem test_rdsec : got .rdsec { State.reset with sec := some 60 } (·.reads) = some [.seconds 60] := by decide

/-- V86 to V88. -/
theorem test_unwritten_reads : got .rdsec State.reset (fun t => (t.ecode, t.reads)) = some (6, []) ∧
    got .rdcur State.reset (·.ecode) = some 6 ∧ got .rdres State.reset (·.ecode) = some 6 := by decide

/-- R154's example. -/
theorem test_rdcur : got .rdcur { running 0 0 with cur := some 393218 } (·.reads) = some [.extended 393218] := by decide

/-- R155's example. -/
theorem test_rdres : got .rdres { running 0 0 with res := some 468720 } (·.reads) = some [.extended 468720] := by decide

/-- V83. -/
theorem test_rdstat : got .rdstat { running 0 0 with pend := true } (·.reads) = some [.status 0x0038] := by decide

/-- V89, V90. -/
theorem test_rdd : got (.rdd 1) State.reset (·.reads) = some [.extended 0] ∧
    got (.rdd 2) State.reset (fun t => (t.ecode, t.reads)) = some (7, []) := by decide

/-- V95: the first code stays. -/
theorem test_first_fault_stays : (raiseFault .badPort (raiseFault .illegalCmd State.reset)).ecode = 1 := by decide

/-! ## Witnesses: concrete states and operands that meet the hypotheses of the obligations -/

/-- The host is next with this action. -/
def hostNext (x : Config.HostAct) (s : State) : State := { s with schedule := [.host], hostQueue := [x] }

theorem witness_DecodeOfEncodeIsIdentity : (Instr.arm 1).wellFormed = true := by decide

theorem witness_EncodeOfDecodedIsTheSameWord :
    decode (.cmd 0x61) = .ok (.cancel 1) ∧ decode (.port (readPort 17)) = .ok (.rdd 1) := by decide

theorem witness_SelectorsDecodeAsTabled :
    selector (writePort 0 0x10) = 0b100000 ∧ selector (writePort 1 60) = 0b100001 ∧ selector (readPort 1) = 0b000001 ∧
    selector (readPort 2) = 0b000010 ∧ selector (readPort 3) = 0b000011 ∧ selector (readPort 4) = 0b000100 ∧
    (selector (readPort 17) = 0b01#2 ++ 1#4 ∧ (1#4).toNat < Config.nj) ∧
    (selector (readPort 18) = 0b01#2 ++ 2#4 ∧ Config.nj ≤ (2#4).toNat) ∧
    ((selector (readPort 5)).toNat ∉ [32, 33, 1, 2, 3, 4] ∧ ∀ j : Slot, selector (readPort 5) ≠ 0b01#2 ++ j) := by
  decide

theorem witness_StepRunsTheHostsAccess :
    let s := hostNext (.access (readPort 4)) State.reset
    nextAgent s = .host ∧ s.ph = .idle ∧ s.halted = false ∧ nextAct s = .access (readPort 4) ∧ decode (.port (readPort 4)) = .ok .rdstat ∧
      s.schedule = [.host] ∧ s.hostQueue = [.access (readPort 4)] := by decide

theorem witness_StepRunsTheInterrupt :
    nextAgent { State.reset with schedule := [.irq] } = .irq := by decide

/-- A witness for each clause, the last plain count and the wrap among them. -/
theorem witness_TickStepCounts :
    nextAgent { State.reset with schedule := [.tick] } = .tick ∧
    (running 0 0xFFFE).run = true ∧ (running 0 0xFFFE).htr.toNat < 2 ^ Config.w1 - 1 ∧
    (running 0 0xFFFF).htr.toNat = 2 ^ Config.w1 - 1 := by decide

theorem witness_SetieWritesInterruptEnable :
    let s := hostNext (.setie true) State.reset
    nextAgent s = .host ∧ s.ph = .idle ∧ s.halted = false ∧ nextAct s = .setie true := by decide

/-- The first reserved port, the last, and a slot port just past NJ. -/
theorem witness_ReservedSelectorsFault :
    let s := hostNext (.access (readPort 5)) State.reset
    nextAgent s = .host ∧ s.ph = .idle ∧ s.halted = false ∧ nextAct s = .access (readPort 5) ∧
      (selector (readPort 5)).toNat ∉ [32, 33, 1, 2, 3, 4, 16, 17] ∧
      (selector (readPort 18)).toNat ∉ [32, 33, 1, 2, 3, 4, 16, 17] ∧
      (selector (writePort 31 0)).toNat ∉ [32, 33, 1, 2, 3, 4, 16, 17] := by decide

theorem witness_InitZeroesTheClock :
    (State.reset.ph = .idle ∧ State.reset.inited = false ∧ State.reset.ie = false) ∧
    ((running 0 0).ph = .idle ∧ (running 0 0).inited = true) ∧
    ({ State.reset with ie := true }.inited = false ∧ { State.reset with ie := true }.ie = true) := by decide

theorem witness_WrapincCountsTheWrap :
    let s : State := { running 0xFFFFFFFF 0 with pend := true, ie := true }
    s.pend = true ∧ s.ie = true ∧ s.ovf = some 0xFFFFFFFF ∧ (0xFFFFFFFF : Overflow).toNat = 2 ^ Config.w2 - 1 := by
  decide

theorem witness_DisabledAgentsHold :
    (nextAgent { State.reset with schedule := [.tick] } = .tick ∧ State.reset.run = false) ∧
    (nextAgent { State.reset with schedule := [.irq] } = .irq ∧ State.reset.pend = false) ∧
    { running 0 0 with pend := true }.ie = false := by decide

/-- Idle, as NOW, WRSEC, RDSTAT, WRCMD and the rest need it. -/
theorem witness_NowStartsARead : State.reset.ph = .idle := rfl

/-- A read in flight with the host next, its latches at the guard's lower edge. -/
def inFlight (o : SeqOp) (p : Phase) : State :=
  { reading o p 3 0 with
    high := some 3, low := some 0, sec := some 1, j := some 1, schedule := [.host], hostQueue := [] }

theorem witness_FirstSubStepLatchesOverflow :
    (nextAgent (inFlight .now .n1) = .host ∧ (inFlight .now .n1).ph = .n1 ∧ (inFlight .now .n1).inited = true ∧
      (inFlight .now .n1).ovf = some 3) ∧
    { inFlight .now .n1 with inited := false, ovf := none }.inited = false := by decide

theorem witness_SecondSubStepLatchesTick :
    nextAgent (inFlight .now .n2) = .host ∧ (inFlight .now .n2).ph = .n2 := by decide

/-- GUARD is at least 1 and at most `2^15`, so LOW = 0 is below it and LOW = 0xFFFF is not. -/
theorem witness_ThirdSubStepRereadsBelowGuard :
    (nextAgent (inFlight .now .n3) = .host ∧ (inFlight .now .n3).ph = .n3 ∧ (inFlight .now .n3).low = some 0 ∧
      (inFlight .now .n3).ovf = some 3 ∧ (0 : Tick).toNat < Config.guardTicks) ∧
    Config.guardTicks ≤ (0xFFFF : Tick).toNat :=
  ⟨⟨rfl, rfl, rfl, rfl, Config.guardTicks_pos⟩, Config.guardTicks_le.trans (by decide)⟩

theorem witness_FourthSubSteps (o : SeqOp) :
    nextAgent (inFlight o .n4) = .host ∧ (inFlight o .n4).ph = .n4 ∧ (inFlight o .n4).op = some o ∧
      (inFlight o .n4).high = some 3 ∧ (inFlight o .n4).low = some 0 ∧ (inFlight o .n4).sec = some 1 ∧
      (1 : Seconds) ≠ 0 ∧ (inFlight o .n4).j = some 1 ∧ (1 : Slot).toNat < Config.nj := by
  cases o <;> decide

/-- DTT and ARM at issue: SEC zero, not zero, unwritten; the last slot. -/
theorem witness_DttIssue_ArmIssue :
    ({ State.reset with sec := some 0 }.ph = .idle ∧ { State.reset with sec := some 0 }.sec = some 0) ∧
    ({ State.reset with sec := some 1 }.sec = some 1 ∧ (1 : Seconds) ≠ 0) ∧ State.reset.sec = none ∧
    (1 : Slot).toNat < Config.nj := by decide

/-- ISDUE with CUR at the deadline and with CUR unwritten; the last slot that exists and the first that does not. -/
theorem witness_IsdueComparesSlotWithCur :
    ({ running 0 0 with cur := some 468720 }.ph = .idle ∧ { running 0 0 with cur := some 468720 }.cur = some 468720) ∧
    State.reset.cur = none ∧ (1 : Slot).toNat < Config.nj ∧ Config.nj ≤ (2 : Slot).toNat := by decide

theorem witness_CancelClearsTheSlot_ArmOfMissingSlotFaults_RddReturnsTheSlot :
    State.reset.ph = .idle ∧ (1 : Slot).toNat < Config.nj ∧ Config.nj ≤ (2 : Slot).toNat := by decide

theorem witness_WrcmdPerformsTheCommand : decode (.cmd 0x10) = .ok .init ∧
    decode (.cmd 0x70) = .error .wrapincFromHost ∧ decode (.cmd 0x80) = .error .illegalCmd := by decide

theorem witness_reads :
    { running 0 0 with sec := some 60 }.sec = some 60 ∧ { running 0 0 with cur := some 5 }.cur = some 5 ∧
    { running 0 0 with res := some 5 }.res = some 5 ∧ (running 0 0).ph = .idle ∧
    State.reset.sec = none ∧ State.reset.cur = none ∧ State.reset.res = none := by decide

theorem witness_HostHoldsWhileBusy :
    (inFlight .now .n2).ph ≠ .idle ∧ nextAgent (inFlight .now .n2) = .host ∧
      ∃ t, step (inFlight .now .n2) = .next t :=
  ⟨by decide, rfl, _, rfl⟩

/-- The state after INIT (V20), one that satisfies both counting rules, and a step from it. -/
theorem witness_TicksAreWraps_OverflowCounts :
    let s : State := { running 7 9968 with schedule := [.tick] }
    (State.reset.ph = .idle ∧ State.reset.inited = false ∧ State.reset.ie = false ∧
      ∃ t, exec .init State.reset = .next t) ∧
    TicksSplit s ∧ s.ovf ≠ none ∧ WrapsCounted s ∧ ∃ t, step s = .next t :=
  ⟨⟨rfl, rfl, rfl, _, rfl⟩, by unfold TicksSplit; decide, by decide, ⟨by decide, fun o h => by cases h; decide⟩, _, rfl⟩

theorem witness_InitedAndRunStay :
    let s : State := { running 7 9968 with schedule := [.tick] }
    s.inited = true ∧ s.run = true ∧ ∃ t, step s = .next t :=
  ⟨rfl, rfl, _, rfl⟩

/-- N4 of an ARM, with the witness above for its operands, and CANCEL of the last slot. -/
theorem witness_ArmedJobsBecomeDueAtTheirDeadline :
    (∃ t, step (inFlight .arm .n4) = .next t) ∧ (1 : Slot).toNat < Config.nj ∧ State.reset.ph = .idle ∧
      ∃ t, exec (.cancel 1) State.reset = .next t :=
  ⟨⟨_, rfl⟩, by decide, rfl, _, rfl⟩

theorem witness_FaultsAreSticky :
    let s : State := { raiseFault .badPort State.reset with schedule := [.tick] }
    s.err = true ∧ step s = .next { s with schedule := [] } :=
  ⟨rfl, rfl⟩

/-- TICK changes HTR, so the hypotheses of the statement about HTR's writers are met. -/
theorem witness_OnlyTickAndInitWriteTickRegister :
    let s : State := { running 0 5 with schedule := [.tick] }
    ∃ t, step s = .next t ∧ t.htr ≠ s.htr :=
  ⟨_, rfl, by decide⟩

theorem witness_OnlyInterruptAndInitWriteOverflow :
    let s : State := { running 5 0 with pend := true, ie := true, schedule := [.irq] }
    ∃ t, step s = .next t ∧ t.ovf ≠ s.ovf :=
  ⟨_, rfl, by decide⟩

theorem witness_OnlySetieWritesInterruptEnable :
    let s := hostNext (.setie true) State.reset
    ∃ t, step s = .next t ∧ t.ie ≠ s.ie :=
  ⟨_, rfl, by decide⟩

theorem witness_OnlyArmAndCancelWriteSlots :
    let s := hostNext (issueCmd 6 1) { running 0 0 with d := #v[0, 5] }
    ∃ t, step s = .next t ∧ readSlot 1 t ≠ readSlot 1 s :=
  ⟨_, rfl, by decide⟩

/-- Each of CUR, RES and DUE is written by some step. -/
theorem witness_OnlyTheirCommandsWriteResults :
    (∃ t, step (inFlight .now .n4) = .next t ∧ t.cur ≠ (inFlight .now .n4).cur) ∧
    (let s := hostNext (issueCmd 3 0) { running 0 0 with sec := some 0 }
      ∃ t, step s = .next t ∧ t.res ≠ s.res) ∧
    (let s := hostNext (issueCmd 5 0) { running 0 0 with d := #v[5, 0], cur := some 5 }
      ∃ t, step s = .next t ∧ t.due ≠ s.due) :=
  ⟨⟨_, rfl, by decide⟩, ⟨_, rfl, by decide⟩, ⟨_, rfl, by decide⟩⟩

theorem witness_DeadlinesAreExactAndInTheFuture :
    (4294967295 : Seconds) ≠ 0 ∧ (281474976710655 : Extended).toNat < 2 ^ Config.wx := by decide

/-! ### Whole reads -/

/-- A running block that is about to do N1, with HTR = 0 and four host steps scheduled. -/
def readStart (ticks wraps lost : Nat) (pend : Bool) (ovf : Overflow) : State :=
  { State.reset with
    run := true, inited := true, ie := true, ovf := some ovf, pend := pend, ticks := ticks, wraps := wraps, lost := lost
    ph := .n1, op := some .now, schedule := [.host, .host, .host, .host] }

/-- The read from `s` in which no other agent steps. -/
def readFrom (s : State) : Read :=
  { t1 := s
    t2 := { s with high := s.ovf, ph := .n2, schedule := [.host, .host, .host] }
    t3 := { s with high := s.ovf, low := some s.htr, ph := .n3, schedule := [.host, .host] }
    t4 := { s with high := s.ovf, low := some s.htr, ph := .n4, schedule := [.host] } }

theorem readFrom_occurs (ticks wraps lost : Nat) (pend : Bool) (ovf : Overflow) :
    (readFrom (readStart ticks wraps lost pend ovf)).Occurs := by
  have low : belowGuard Config.guardTicks 0 = true := (belowGuard_iff _ _).mpr Config.guardTicks_pos
  refine ⟨rfl, rfl, ⟨_, ⟨rfl, rfl⟩, .refl⟩, ⟨_, ⟨rfl, rfl⟩, .refl⟩, ⟨_, ⟨rfl, ?_⟩, .refl⟩⟩
  rw [step_host_busy rfl (by simp [readFrom])]
  simp only [subStep, readFrom, readStart, dropAgent, subN3, withValue, State.reset]
  rw [if_pos low]

/-- The invariant at such a start, where its counters belong together. -/
theorem readStart_inv {ticks wraps lost : Nat} {pend : Bool} {ovf : Overflow} (h : ticks = wraps * 65536)
    (hw : lost + (if pend then 1 else 0) ≤ wraps)
    (ho : ovf.toNat = (wraps - lost - if pend then 1 else 0) % 2 ^ 32) :
    BlockInv (readStart ticks wraps lost pend ovf) where
  run_inited := rfl
  ovf_inited := rfl
  before_init := fun e => by cases e
  ticks_split := by
    unfold TicksSplit
    exact h.trans (Nat.add_zero (wraps * 65536)).symm
  wraps_counted := ⟨hw, fun o e => by obtain rfl : ovf = o := Option.some.inj e; exact ho⟩
  cur_fits := fun v e => by cases e
  due_compared := fun e => by cases e
  code_recorded := by constructor <;> simp [readStart, State.reset]
  sequencer := trivial
  halted_idle := fun e => by cases e

theorem witness_EveryStepKeepsTheInvariant :
    BlockInv (readStart 65536 1 0 false 1) ∧ ∃ t, step (readStart 65536 1 0 false 1) = .next t :=
  ⟨readStart_inv (by decide) (by decide) (by decide), _, rfl⟩

theorem witness_OtherAgentsTouchOnlySharedState :
    let s : State := { readStart 65536 1 0 false 1 with schedule := [.tick] }
    nextAgent s ≠ .host ∧ ∃ t, step s = .next t :=
  ⟨by decide, _, rfl⟩

theorem witness_ReadsCompleteInFourHostSteps :
    let r := readFrom (readStart 65536 1 0 false 1)
    BlockInv r.t1 ∧ r.Occurs ∧ ∃ a, HostMove r.t4 a :=
  ⟨readStart_inv (by decide) (by decide) (by decide), readFrom_occurs _ _ _ _ _, _, rfl, rfl⟩

/-- One wrap, serviced, no tick in the window: P0 to P3 hold. -/
theorem readFrom_premises : (readFrom (readStart 65536 1 0 false 1)).Premises := by
  refine ⟨rfl, Config.guardTicks_pos, by unfold Read.ServedByReread; decide, ?_⟩
  intro k _ h
  have := Config.guardTicks_pos
  simp only [readFrom, readStart, servedWraps, pendCount, Config.w1] at *
  omega

theorem witness_ReadsAreCorrectUnderThePremises :
    let r := readFrom (readStart 65536 1 0 false 1)
    BlockInv r.t1 ∧ r.Occurs ∧ r.Premises :=
  ⟨readStart_inv (by decide) (by decide) (by decide), readFrom_occurs _ _ _ _ _, readFrom_premises⟩

/-- The same read twice, correct: 65536 ticks and the latches 1 and 0. -/
theorem witness_CorrectReadsAreMonotone :
    let r := readFrom (readStart 65536 1 0 false 1)
    BlockInv r.t1 ∧ r.Occurs ∧ r.Correct ∧ Moves r.t2 r.t2 ∧ r.t2.ticks < 2 ^ Config.wx :=
  ⟨readStart_inv (by decide) (by decide) (by decide), readFrom_occurs _ _ _ _ _, by unfold Read.Correct; decide, .refl,
    by decide⟩

/-- HTR stands at its maximum with a read at N1: a TICK wraps it, the IRQ counts the wrap, and the read begins. -/
def beforeWrap : State :=
  { readStart 65535 0 0 false 0 with htr := 0xFFFF, schedule := [.tick, .irq, .host, .host, .host, .host] }

theorem beforeWrap_inv : BlockInv beforeWrap where
  run_inited := rfl
  ovf_inited := rfl
  before_init := fun e => by cases e
  ticks_split := by unfold TicksSplit; decide
  wraps_counted := ⟨by decide, fun o e => by cases e; decide⟩
  cur_fits := fun v e => by cases e
  due_compared := fun e => by cases e
  code_recorded := by decide
  sequencer := trivial
  halted_idle := fun e => by cases e

theorem witness_ReadAfterAWrapCountsIt :
    let r := readFrom (readStart 65536 1 0 false 1)
    BlockInv beforeWrap ∧ beforeWrap.pend = false ∧ beforeWrap.lost = 0 ∧ beforeWrap.ovf = some 0 ∧
      (0 : Overflow).toNat + 1 < 2 ^ Config.w2 ∧ Moves beforeWrap r.t1 ∧ r.t2.wraps = beforeWrap.wraps + 1 ∧ r.Occurs ∧
      r.Premises := by
  refine ⟨beforeWrap_inv, rfl, rfl, rfl, by decide, ?_, rfl, readFrom_occurs _ _ _ _ _, readFrom_premises⟩
  refine .head (b := { readStart 65536 1 0 true 0 with schedule := [.irq, .host, .host, .host, .host] }) ?_
    (.head ?_ .refl)
  · exact rfl
  · exact rfl

/-- One wrap, still pending (V27). -/
theorem witness_UnservicedWrapGivesATornRead :
    let r := readFrom (readStart 65536 1 0 true 0)
    BlockInv r.t1 ∧ r.Occurs ∧ r.NoneLost ∧ r.t3.wraps = r.t2.wraps ∧ r.t3.pend = true ∧
      r.t2.htr.toNat < Config.guardTicks :=
  ⟨readStart_inv (by decide) (by decide) (by decide), readFrom_occurs _ _ _ _ _, rfl, rfl, rfl, Config.guardTicks_pos⟩

/-- Two wraps, the second lost (V37). -/
theorem witness_EachLostWrapShortensReads :
    let r := readFrom (readStart 131072 2 1 false 1)
    BlockInv r.t1 ∧ r.Occurs ∧ r.t3.lost = r.t1.lost ∧ r.Short ∧ r.t2.wraps - r.t2.lost ≤ servedWraps r.t3 ∧
      ∀ k, 1 ≤ k → k * 2 ^ Config.w1 + Config.guardTicks ≤ r.t2.ticks → k - r.t2.lost ≤ servedWraps r.t1 := by
  refine ⟨readStart_inv (by decide) (by decide) (by decide), readFrom_occurs _ _ _ _ _, rfl, Config.guardTicks_pos,
    by decide, ?_⟩
  intro k _ h
  have := Config.guardTicks_pos
  simp only [readFrom, readStart, servedWraps, pendCount, Config.w1] at *
  omega

/-! ### The end of a run -/

/-- HALT comes next; a program that has ended, with a TICK to come, meets the invariant. -/
theorem witness_HaltEndsTheHostsProgram :
    let s := hostNext .halt State.reset
    let e : State := { running 0 5 with halted := true, schedule := [.tick] }
    (nextAgent s = .host ∧ s.ph = .idle ∧ s.halted = false ∧ nextAct s = .halt) ∧
    (nextAgent { e with schedule := [.host] } = .host ∧ e.ph = .idle ∧ e.halted = true) ∧
    BlockInv e ∧ ∃ t, step e = .next t := by
  refine ⟨by decide, by decide, ?_, _, rfl⟩
  exact
    { run_inited := rfl
      ovf_inited := rfl
      before_init := fun e => by cases e
      ticks_split := by unfold TicksSplit; decide
      wraps_counted := ⟨by decide, fun o e => by cases e; decide⟩
      cur_fits := fun v e => by cases e
      due_compared := fun e => by cases e
      code_recorded := by decide
      sequencer := trivial
      halted_idle := fun _ => rfl }

/-- A program that reads a reserved port and halts. -/
def badProgram : State :=
  { State.reset with schedule := [.host, .host], hostQueue := [.access (readPort 5), .halt] }

theorem witness_FaultedRunsSatisfyNoPostcondition :
    ∃ u t, Moves badProgram u ∧ u.err = true ∧ RunEnds u t :=
  ⟨_, _, .single rfl, rfl, _, .refl, ⟨rfl, rfl⟩, rfl, rfl⟩

/-- HALT after reset is a good end, and the host sees that SEC was never written. -/
theorem test_good_end : ∃ t, RunEnds (hostNext .halt State.reset) t ∧ Satisfies t fun v => v.sec = none :=
  ⟨_, ⟨_, .refl, ⟨rfl, rfl⟩, rfl, rfl⟩, ⟨rfl, rfl, nofun⟩, rfl⟩

/-! ### A fair infinite run -/

/-- The agents in turn; the host never does more than SETIE 1. -/
def turn (n : Nat) : Choice :=
  { agent := if n % 3 = 0 then .host else if n % 3 = 1 then .tick else .irq, act := .setie true }

/-- A step whose only host action is SETIE 1 answers a next state and leaves IE set. -/
theorem step_turn (n : Nat) (s : State) :
    ∃ t, step (offered (turn n) s) = .next t ∧ (s.ie = true → t.ie = true) := by
  have hx : nextAct (offered (turn n) s) = .setie true := rfl
  have answers : ∃ t, step (offered (turn n) s) = .next t := by
    cases ha : nextAgent (offered (turn n) s) with
    | tick => exact ⟨_, step_tick ha⟩
    | irq => exact ⟨_, step_irq ha⟩
    | host =>
      by_cases hp : (offered (turn n) s).ph = .idle
      · cases hh : (offered (turn n) s).halted with
        | true => exact ⟨_, step_host_halted ha hp hh⟩
        | false =>
          have hi : (dropAct (dropAgent (offered (turn n) s))).ph = .idle := by simpa using hp
          exact ⟨_, by rw [step_host_idle ⟨ha, hp, hh⟩, hx, hostAction, setInterruptEnable, whenIdle_of_idle hi]⟩
      · exact ⟨_, step_host_busy ha hp⟩
  obtain ⟨t, h⟩ := answers
  refine ⟨t, h, fun hs => ?_⟩
  have hie : (offered (turn n) s).ie = true := hs
  apply step_elim (Q := fun t => t.ie = true) h <;> intros <;> simp_all [taken]

/-- The run in turns from `s`. -/
def turns (s : State) : Nat → State
  | 0 => s
  | n + 1 => (after (step (offered (turn n) (turns s n)))).getD s

theorem turns_succ (s : State) (n : Nat) : step (offered (turn n) (turns s n)) = .next (turns s (n + 1)) := by
  obtain ⟨t, h, _⟩ := step_turn n (turns s n)
  simp only [turns, h, after, Option.getD_some]

theorem turns_ie {s : State} (h : s.ie = true) (n : Nat) : (turns s n).ie = true := by
  induction n with
  | zero => exact h
  | succ n ih =>
    obtain ⟨t, ht, hie⟩ := step_turn n (turns s n)
    rw [turns_succ] at ht
    injection ht with ht
    exact ht ▸ hie ih

/-- The infinite run in turns. -/
def runInTurns (s : State) : InfiniteRun := { state := turns s, choice := turn, moves := turns_succ s }

theorem runInTurns_fair (s : State) : Fair (runInTurns s) where
  tick := fun n _ => ⟨3 * n + 1, by omega, by simp [runInTurns, turn, Nat.add_mod]⟩
  irq := fun n _ => ⟨3 * n + 2, by omega, by simp [runInTurns, turn, Nat.add_mod]⟩
  subSteps := fun n _ => ⟨3 * n, by omega, by simp [runInTurns, turn]⟩

/-- A read in flight, a wrap pending, and IE set for good. -/
theorem witness_FairRunsCompleteCommandsAndServiceWraps :
    let r := runInTurns (readStart 65536 1 0 true 0)
    Fair r ∧ (r.state 0).ph ≠ .idle ∧ BlockInv (r.state 0) ∧ (r.state 0).pend = true ∧
      ∀ m, 0 ≤ m → (r.state m).ie = true :=
  ⟨runInTurns_fair _, by decide, readStart_inv (by decide) (by decide) (by decide), rfl, fun m _ => turns_ie rfl m⟩

/-- P2 of 95_test_vectors.md: 468720 is job A's deadline, the largest that fits 48 bits the other end of the range. -/
theorem witness_FairRunsReachEveryCount :
    let r := runInTurns (readStart 65536 1 0 false 1)
    Fair r ∧ BlockInv (r.state 0) ∧ (r.state 0).run = true ∧ (r.state 0).ticks ≤ 65536 ∧
      (468720 : Extended).toNat < 2 ^ Config.wx ∧ jobState 468720 (trueCount (r.state 0)) = .armed ∧
      (281474976710655 : Extended).toNat < 2 ^ Config.wx ∧
      jobState 281474976710655 (trueCount (r.state 0)) = .armed :=
  ⟨runInTurns_fair _, readStart_inv (by decide) (by decide) (by decide), rfl, by decide, by decide, by decide, by decide,
    by decide⟩

end Sys2Proof.Tests
end

/-! Decoding of the host's command words (30_encoding.md). A word is its two fields of R70; `op` chooses the command, and the
range of the two fields says which words are legal (R74, R76). -/

namespace Sys2Proof.Encoding

/-! ## The fields of a command word (R70) -/

@[simp] theorem opField_append (op : BitVec 4) (j : Slot) : opField (op ++ j) = op :=
  BitVec.extractLsb'_append_eq_left

@[simp] theorem slotField_append (op : BitVec 4) (j : Slot) : slotField (op ++ j) = j :=
  BitVec.extractLsb'_append_eq_right

@[simp] theorem opField_append_slotField (c : CmdWord) : opField c ++ slotField c = c := by
  unfold opField slotField
  rw [BitVec.extractLsb'_append_extractLsb'_eq_extractLsb' (start₁ := 0) (by rfl), BitVec.extractLsb'_eq_self]

/-- The operation is the high hexadecimal digit of the word and the slot the low one. -/
theorem toNat_eq_fields (c : CmdWord) : c.toNat = 16 * (opField c).toNat + (slotField c).toNat := by
  calc c.toNat = (opField c ++ slotField c).toNat := by rw [opField_append_slotField]
    _ = (opField c).toNat <<< 4 + (slotField c).toNat := by
      rw [BitVec.toNat_append, ← Nat.shiftLeft_add_eq_or_of_lt (slotField c).isLt]
    _ = 16 * (opField c).toNat + (slotField c).toNat := by rw [Nat.shiftLeft_eq, Nat.mul_comm]

/-! ## Legal words (R74, R76) -/

theorem exists_plainCmd_ok_iff {j : Slot} {r : Except FaultCode Instr} :
    (∃ i, plainCmd j r = .ok i) ↔ j = 0#4 ∧ ∃ i, r = .ok i := by
  unfold plainCmd
  split <;> simp [*]

theorem exists_slotCmd_ok_iff {n : Nat} {j : Slot} {i : Instr} :
    (∃ i', slotCmd n j i = .ok i') ↔ j.toNat < n := by
  unfold slotCmd
  split <;> simp [*]

/-- The first range holds INIT, NOW and DTT, the second ARM, ISDUE and CANCEL. -/
theorem exists_decodeCmd_ok_iff (c : CmdWord) :
    (∃ i, decodeCmd c = .ok i) ↔
      ((opField c).toNat ∈ [1, 2, 3] ∧ slotField c = 0#4) ∨
      ((opField c).toNat ∈ [4, 5, 6] ∧ (slotField c).toNat < Config.nj) := by
  unfold decodeCmd decodeCmdWith
  split
  case h_8 => simp_all -- `op` outside R76's table
  all_goals simp [*, exists_plainCmd_ok_iff, exists_slotCmd_ok_iff]

/-- R76's list is the numbers of the words with legal fields. -/
theorem exists_decodeCmd_ok_iff_mem (c : CmdWord) : (∃ i, decodeCmd c = .ok i) ↔
    c.toNat ∈ [0x10, 0x20, 0x30, 0x40, 0x41, 0x50, 0x51, 0x60, 0x61] := by
  have hj := (slotField c).isLt
  rw [exists_decodeCmd_ok_iff, toNat_eq_fields, BitVec.toNat_eq]
  simp only [List.mem_cons, List.not_mem_nil, or_false, Config.nj, BitVec.toNat_ofNat]
  omega

/-- Settles O1: the table by the decoder's cases of `op`, the nine words by their fields. -/
theorem commandWordsDecodeAsTabled : Obligations.CommandWordsDecodeAsTabled := by
  refine ⟨fun op j => ?_, exists_decodeCmd_ok_iff_mem⟩
  simp only [decode, decodeCmd, decodeCmdWith, opField_append, slotField_append, plainCmd, slotCmd, BitVec.toNat_eq]
  split <;> simp_all

end Sys2Proof.Encoding

/-! The Extended Clock (40_clock.md). First what each of its steps does to the whole state, then what a step of any agent does
to the clock, and from that the two counting rules (R113, R114) and the reads (R111 to R119). -/

namespace Sys2Proof.Clock

open Sys2Proof.Machine Sys2Proof.Safety

/-! ## TICK, WRAPINC, INIT and NOW (R100 to R106) -/

/-- The fault action is the record R171 describes. -/
theorem raiseFault_eq_recorded (c : FaultCode) (s : State) : raiseFault c s = recorded (faultBits c) s := rfl

theorem atWrap_false_iff (h : Tick) : atWrap h = false ↔ h.toNat < 2 ^ Config.w1 - 1 := by
  have hl := h.isLt
  rw [← Bool.not_eq_true, atWrap_iff]
  omega

/-- Below the maximum HTR counts without a carry. -/
theorem toNat_succ_of_not_atWrap {h : Tick} (hw : atWrap h = false) : (h + 1).toNat = h.toNat + 1 := by
  have one : (1 : Tick).toNat = 1 := rfl
  rw [atWrap_false_iff] at hw
  rw [BitVec.toNat_add_of_lt, one]
  rw [one]
  omega

/-- Settles O8, by the two branches of TICK. -/
theorem tickStepCounts : Obligations.TickStepCounts := by
  refine fun s hs => ⟨fun hr hh => ?_, fun hr hh => ?_⟩ <;> rw [step_tick hs]
  · simp [tickStep, hr, (atWrap_false_iff _).mpr hh, BitVec.ofNat_add]
  · simp [tickStep, hr, (atWrap_iff _).mpr hh]

theorem exec_init (s : State) (hs : s.ph = .idle) : exec .init s = .next (initBlock s) :=
  whenIdle_of_idle hs initBlock

/-- Settles O12, by the two tests INIT makes, in their order. -/
theorem initZeroesTheClock : Obligations.InitZeroesTheClock := by
  refine ⟨fun s hs hi he => ?_, fun s hs hi => ?_, fun s hs hi he => ?_⟩ <;> rw [exec_init s hs]
  · simp [initBlock, hi, he]
  · simp [initBlock, hi, raiseFault_eq_recorded, faultBits]
  · simp [initBlock, hi, he, raiseFault_eq_recorded, faultBits]

theorem exec_wrapinc_enabled {s : State} {o : Overflow} (hp : s.pend = true) (hi : s.ie = true) (ho : s.ovf = some o) :
    exec .wrapinc s = .next { s with pend := false, ovf := some (o + 1) } := by
  simp [exec, execWrapinc, irqStep, hp, hi, ho]

/-- Settles O13: the counter's own addition is modulo `2^W2`, so its maximum is followed by 0. -/
theorem wrapincCountsTheWrap : Obligations.WrapincCountsTheWrap := by
  refine ⟨fun s o hp hi ho => ?_, fun s o hp hi ho hmax => ?_⟩ <;> rw [exec_wrapinc_enabled hp hi ho]
  · simp [BitVec.ofNat_add]
  · have hz : o = BitVec.allOnes Config.w2 := BitVec.eq_of_toNat_eq (hmax.trans BitVec.toNat_allOnes.symm)
    subst hz
    rfl

/-- Settles O15: the issuing step of NOW, taken from idle, does not look at IE. -/
theorem nowStartsARead : Obligations.NowStartsARead :=
  fun _ hs => whenIdle_of_idle hs (startRead .now)

/-! ## The sub-steps of a read (R107 to R110) -/

theorem step_n1 {s : State} (hs : nextAgent s = .host) (hp : s.ph = .n1) :
    step s = .next (subN1 (dropAgent s)) := by
  simp [step_host_busy hs, hp, subStep]

theorem step_n2 {s : State} (hs : nextAgent s = .host) (hp : s.ph = .n2) :
    step s = .next (subN2 (dropAgent s)) := by
  simp [step_host_busy hs, hp, subStep]

theorem step_n3 {s : State} (hs : nextAgent s = .host) (hp : s.ph = .n3) :
    step s = .next (subN3 Config.guardTicks (dropAgent s)) := by
  simp [step_host_busy hs, hp, subStep]

theorem step_n4 {s : State} (hs : nextAgent s = .host) (hp : s.ph = .n4) :
    step s = .next (subN4 Config.rate (dropAgent s)) := by
  simp [step_host_busy hs, hp, subStep]

/-- Settles O16, by whether INIT has run. -/
theorem firstSubStepLatchesOverflow : Obligations.FirstSubStepLatchesOverflow := by
  refine ⟨fun s o hs hp hi ho => ?_, fun s hs hp hi => ?_⟩ <;> rw [step_n1 hs hp]
  · simp [subN1, hi, ho]
  · simp [subN1, hi, raiseFault_eq_recorded, faultBits]

/-- Settles O17: N2 latches HTR as it stands. -/
theorem secondSubStepLatchesTick : Obligations.SecondSubStepLatchesTick := by
  intro s hs hp
  simp [step_n2 hs hp, subN2]

theorem step_n3_reread {s : State} {l : Tick} {o : Overflow} (hs : nextAgent s = .host) (hp : s.ph = .n3)
    (hl : s.low = some l) (ho : s.ovf = some o) (hg : l.toNat < Config.guardTicks) :
    step s = .next { dropAgent s with high := some o, ph := .n4 } := by
  simp [step_n3 hs hp, subN3, hl, ho, (belowGuard_iff _ l).mpr hg]

theorem step_n3_keep {s : State} {l : Tick} (hs : nextAgent s = .host) (hp : s.ph = .n3)
    (hl : s.low = some l) (hg : Config.guardTicks ≤ l.toNat) :
    step s = .next { dropAgent s with ph := .n4 } := by
  simp [step_n3 hs hp, subN3, hl, belowGuard, Nat.not_lt.mpr hg]

/-- Settles O18: 0 is below every GUARD, since GUARD is at least 1 (WF2). -/
theorem thirdSubStepRereadsBelowGuard : Obligations.ThirdSubStepRereadsBelowGuard :=
  ⟨fun _ _ _ hs hp hl ho hg => step_n3_reread hs hp hl ho hg, fun _ _ hs hp hl hg => step_n3_keep hs hp hl hg,
    fun _ _ hs hp hl ho => step_n3_reread hs hp hl ho Config.guardTicks_pos⟩

/-- Settles O19: the value is the two latches side by side. -/
theorem fourthSubStepOfNowWritesCur : Obligations.FourthSubStepOfNowWritesCur := by
  intro s h l hs hp ho hh hl
  refine ⟨extendedTime h l, extendedTime_toNat h l, extendedTime_lt h l, ?_⟩
  simp [step_n4 hs hp, subN4, hh, hl, ho, finishNow]

/-! ## What a step of any agent does to the clock -/

/-- The elements that counting and reading time rest on are the same in both states. -/
structure SameClock (s t : State) : Prop where
  htr : t.htr = s.htr
  pend : t.pend = s.pend
  ovf : t.ovf = s.ovf
  inited : t.inited = s.inited
  ticks : t.ticks = s.ticks
  wraps : t.wraps = s.wraps
  lost : t.lost = s.lost

/-- The clock part of TICK's plain count (R100). -/
def counted (s : State) : State := { s with ticks := s.ticks + 1, htr := s.htr + 1 }

/-- The clock part of TICK's wrap (R100, R101). -/
def wrapped (s : State) : State :=
  { s with ticks := s.ticks + 1, htr := 0, wraps := s.wraps + 1, lost := s.lost + pendCount s, pend := true }

/-- The clock part of the IRQ step (R102). -/
def served (o : Overflow) (s : State) : State := { s with pend := false, ovf := some (o + 1) }

/-- The clock part of INIT (R105). -/
def zeroed (s : State) : State :=
  { s with htr := 0, ovf := some 0, pend := false, inited := true, ticks := 0, wraps := 0, lost := 0 }

/-- Everything a step can do to the clock. -/
inductive ClockChange (s t : State) : Prop where
  | same (h : SameClock s t)
  | count (hw : atWrap s.htr = false) (h : SameClock (counted s) t)
  | wrap (hw : atWrap s.htr = true) (h : SameClock (wrapped s) t)
  | serve (o : Overflow) (hp : s.pend = true) (ho : s.ovf = some o) (h : SameClock (served o s) t)
  | init (hi : s.inited = false) (h : SameClock (zeroed s) t)

/-- The host's own steps, the holds and the faults leave the clock alone; INIT is the host's one exception. -/
theorem clockChange_of_step {s t : State} (h : step s = .next t) : ClockChange s t := by
  apply step_elim (Q := ClockChange s) h
  case tick => exact fun _ _ hw => .count hw (by constructor <;> simp [counted])
  case wrap => exact fun _ _ hw => .wrap hw (by constructor <;> simp [wrapped, pendCount, apply_ite (s.lost + ·)])
  case irq => exact fun _ hp _ o ho => .serve o hp ho (by constructor <;> simp [served])
  case init => exact fun _ _ _ hi _ => .init hi (by constructor <;> simp [zeroed])
  all_goals intros; exact .same (by constructor <;> simp [taken])

/-! ## R113: ticks are wraps and the tick register -/

theorem SameClock.ticksSplit_iff {s t : State} (h : SameClock s t) : TicksSplit t ↔ TicksSplit s := by
  simp only [TicksSplit, h.htr, h.ticks, h.wraps]

theorem ticksSplit_zeroed (s : State) : TicksSplit (zeroed s) := by
  simp [TicksSplit, zeroed]

theorem TicksSplit.counted {s : State} (hs : TicksSplit s) (hw : atWrap s.htr = false) : TicksSplit (counted s) := by
  simp only [TicksSplit, Clock.counted, toNat_succ_of_not_atWrap hw] at *
  omega

theorem TicksSplit.wrapped {s : State} (hs : TicksSplit s) (hw : atWrap s.htr = true) : TicksSplit (wrapped s) := by
  have zero : (0 : Tick).toNat = 0 := rfl
  rw [atWrap_iff] at hw
  simp only [TicksSplit, Clock.wrapped, zero, Config.w1] at *
  omega

theorem ticksSplit_of_step {s t : State} (hs : TicksSplit s) (h : step s = .next t) : TicksSplit t := by
  cases clockChange_of_step h with
  | same h => exact h.ticksSplit_iff.mpr hs
  | count hw h => exact h.ticksSplit_iff.mpr (TicksSplit.counted hs hw)
  | wrap hw h => exact h.ticksSplit_iff.mpr (TicksSplit.wrapped hs hw)
  | serve o _ _ h => exact h.ticksSplit_iff.mpr hs
  | init _ h => exact h.ticksSplit_iff.mpr (ticksSplit_zeroed s)

/-- A legal INIT answers a state whose clock is zeroed. -/
theorem sameClock_of_init {s t : State} (hs : s.ph = .idle) (hi : s.inited = false) (he : s.ie = false)
    (h : exec .init s = .next t) : SameClock (zeroed s) t := by
  cases h.symm.trans (initZeroesTheClock.1 s hs hi he)
  constructor <;> rfl

/-- Settles O38: the rule holds of a zeroed clock, and each change of the clock keeps it. -/
theorem ticksAreWrapsAndTickRegister : Obligations.TicksAreWrapsAndTickRegister :=
  ⟨fun s _ hs hi he h => (sameClock_of_init hs hi he h).ticksSplit_iff.mpr (ticksSplit_zeroed s),
    fun _ _ => ticksSplit_of_step⟩

/-! ## R114: OVF counts the wraps that were serviced -/

/-- R114 together with R23: OVF has a value, and it is the number of serviced wraps. -/
structure OverflowCounts (s : State) : Prop where
  written : s.ovf ≠ none
  wraps_counted : WrapsCounted s

theorem overflowCounts_def (s : State) : OverflowCounts s ↔ s.ovf ≠ none ∧ WrapsCounted s :=
  ⟨fun h => ⟨h.written, h.wraps_counted⟩, fun h => ⟨h.1, h.2⟩⟩

theorem SameClock.overflowCounts_iff {s t : State} (h : SameClock s t) : OverflowCounts t ↔ OverflowCounts s := by
  simp only [overflowCounts_def, WrapsCounted, servedWraps, pendCount, h.ovf, h.pend, h.wraps, h.lost]

theorem overflowCounts_zeroed (s : State) : OverflowCounts (zeroed s) := by
  refine ⟨nofun, by simp [zeroed, pendCount], fun o ho => ?_⟩
  cases ho
  simp [servedWraps, zeroed]

theorem OverflowCounts.counted {s : State} (hs : OverflowCounts s) : OverflowCounts (counted s) :=
  ⟨hs.written, hs.wraps_counted⟩

/-- A wrap is pending or it makes the one before it lost: the serviced ones stay as many as they were. -/
theorem servedWraps_wrapped (s : State) : servedWraps (wrapped s) = servedWraps s := by
  simp only [servedWraps, wrapped, pendCount, if_true]
  omega

theorem OverflowCounts.wrapped {s : State} (hs : OverflowCounts s) : OverflowCounts (wrapped s) := by
  obtain ⟨hv, hle, hn⟩ := hs
  refine ⟨hv, Nat.succ_le_succ hle, fun o ho => ?_⟩
  rw [servedWraps_wrapped]
  exact hn o ho

theorem servedWraps_served {s : State} (hle : s.lost + pendCount s ≤ s.wraps) (hp : s.pend = true) (o : Overflow) :
    servedWraps (served o s) = servedWraps s + 1 := by
  simp only [servedWraps, served, pendCount, hp, if_true, Bool.false_eq_true, if_false] at *
  omega

theorem OverflowCounts.served {s : State} {o : Overflow} (hs : OverflowCounts s) (hp : s.pend = true)
    (ho : s.ovf = some o) : OverflowCounts (served o s) := by
  obtain ⟨_, hle, hn⟩ := hs
  refine ⟨nofun, Nat.le_of_add_right_le hle, fun o' ho' => ?_⟩
  cases ho'
  rw [servedWraps_served hle hp, BitVec.toNat_add, hn o ho]
  exact Nat.mod_add_mod ..

theorem overflowCounts_of_step {s t : State} (hs : OverflowCounts s) (h : step s = .next t) : OverflowCounts t := by
  cases clockChange_of_step h with
  | same h => exact h.overflowCounts_iff.mpr hs
  | count _ h => exact h.overflowCounts_iff.mpr (OverflowCounts.counted hs)
  | wrap _ h => exact h.overflowCounts_iff.mpr (OverflowCounts.wrapped hs)
  | serve o hp ho h => exact h.overflowCounts_iff.mpr (OverflowCounts.served hs hp ho)
  | init _ h => exact h.overflowCounts_iff.mpr (overflowCounts_zeroed s)

/-- Settles O39: the rule holds of a zeroed clock, and each change of the clock keeps it. -/
theorem overflowCountsServicedWraps : Obligations.OverflowCountsServicedWraps :=
  ⟨fun s t hs hi he h =>
      (overflowCounts_def t).mp ((sameClock_of_init hs hi he h).overflowCounts_iff.mpr (overflowCounts_zeroed s)),
    fun _ t hv hn h => (overflowCounts_def t).mp (overflowCounts_of_step ⟨hv, hn⟩ h)⟩

/-! ## A clock that counts -/

/-- What holds of the clock from INIT on. -/
structure Counting (s : State) : Prop where
  inited : s.inited = true
  ticks_split : TicksSplit s
  overflow_counts : OverflowCounts s

theorem counting_of_blockInv {s : State} (hs : BlockInv s) (hi : s.inited = true) : Counting s where
  inited := hi
  ticks_split := hs.ticks_split
  overflow_counts :=
    { written := Option.isSome_iff_ne_none.mp (hs.ovf_inited.trans hi)
      wraps_counted := hs.wraps_counted }

theorem Counting.exists_ovf {s : State} (hs : Counting s) :
    ∃ o, s.ovf = some o ∧ o.toNat = servedWraps s % 2 ^ Config.w2 := by
  obtain ⟨o, ho⟩ := Option.ne_none_iff_exists'.mp hs.overflow_counts.written
  obtain ⟨_, hn⟩ := hs.overflow_counts.wraps_counted
  exact ⟨o, ho, hn o ho⟩

theorem servedWraps_le_wraps (s : State) : servedWraps s ≤ s.wraps := by
  unfold servedWraps
  omega

/-- INITED stays, and TICKS never goes back. -/
theorem inited_and_ticks_of_step {s t : State} (hs : s.inited = true) (h : step s = .next t) :
    t.inited = true ∧ s.ticks ≤ t.ticks := by
  cases clockChange_of_step h with
  | same h => exact ⟨h.inited.trans hs, h.ticks.ge⟩
  | count _ h | wrap _ h => exact ⟨h.inited.trans hs, h.ticks ▸ Nat.le_succ _⟩
  | serve _ _ _ h => exact ⟨h.inited.trans hs, h.ticks.ge⟩
  | init hi _ => rw [hi] at hs; cases hs

theorem Counting.step {s t : State} (hs : Counting s) (h : step s = .next t) : Counting t where
  inited := (inited_and_ticks_of_step hs.inited h).1
  ticks_split := ticksSplit_of_step hs.ticks_split h
  overflow_counts := overflowCounts_of_step hs.overflow_counts h

theorem Counting.moves {s t : State} (hs : Counting s) (h : Moves s t) : Counting t ∧ s.ticks ≤ t.ticks := by
  induction h with
  | refl => exact ⟨hs, le_rfl⟩
  | tail _ h ih =>
    obtain ⟨hb, hle⟩ := ih
    exact ⟨hb.step h, hle.trans (inited_and_ticks_of_step hb.inited h).2⟩

/-! ## The latches between the sub-steps -/

/-- The sequencer stands where it stood, with the same latches. -/
structure SameLatches (s t : State) : Prop where
  ph : t.ph = s.ph
  high : t.high = s.high
  low : t.low = s.low

/-- TICK and IRQ do not touch the sequencer: an IRQ that finds OVF unwritten would, and there is none while the clock counts. -/
theorem sameLatches_of_otherMove {s t : State} (hs : Counting s) (h : OtherMove s t) : SameLatches s t := by
  obtain ⟨ha, h⟩ := h
  apply step_elim (Q := SameLatches s) h
  case holds | tick | wrap | irq => intros; constructor <;> simp
  case irqFault => exact fun _ _ _ ho => absurd ho hs.overflow_counts.written
  case setie | halt | hostFault | wrsec | reads => exact fun ht => absurd ht.1 ha
  case init | now | dttZero | dtt | clear | arm | isdue => exact fun _ hI => absurd hI.1.1 ha
  all_goals exact fun hh => absurd hh ha

theorem moves_of_otherMoves {s t : State} (h : OtherMoves s t) : Moves s t := 
  Relation.ReflTransGen.mono (fun _ _ m => m.2) _ _ h

theorem sameLatches_of_otherMoves {s t : State} (hs : Counting s) (h : OtherMoves s t) : SameLatches s t := by
  induction h with
  | refl => exact ⟨rfl, rfl, rfl⟩
  | tail hm m ih =>
    have hb := (hs.moves (moves_of_otherMoves hm)).1
    obtain ⟨hph, hhigh, hlow⟩ := sameLatches_of_otherMove hb m
    exact ⟨hph.trans ih.ph, hhigh.trans ih.high, hlow.trans ih.low⟩

/-! ## Reads (R111 to R119) -/

/-- A HOST step and then any steps of TICK and IRQ. -/
theorem moves_of_hostMove {s a t : State} (h : HostMove s a) (ht : OtherMoves a t) : Moves s t :=
  .head h.2 (moves_of_otherMoves ht)

/-- The state whose OVF the read takes for HIGH: N3's where it reads again, N1's otherwise (R109). -/
def overflowSource (r : Read) : State := if r.t2.htr.toNat < Config.guardTicks then r.t3 else r.t1

/-- What a read does, while the clock counts: it latches HTR at N2 and OVF at its source, and time goes on. -/
structure Latched (r : Read) : Prop where
  counting : Counting r.t1 ∧ Counting r.t2 ∧ Counting r.t3
  ticks : r.t1.ticks ≤ r.t2.ticks ∧ r.t2.ticks ≤ r.t3.ticks
  low : r.t4.low = some r.t2.htr
  high : r.t4.high = (overflowSource r).ovf

/-- N1 latches OVF (R107). -/
theorem latches_after_n1 {s a : State} (hs : Counting s) (hp : s.ph = .n1) (h : HostMove s a) :
    a.ph = .n2 ∧ a.high = s.ovf := by
  obtain ⟨ha, h⟩ := h
  obtain ⟨o, ho, _⟩ := hs.exists_ovf
  cases h.symm.trans (firstSubStepLatchesOverflow.1 s o ha hp hs.inited ho)
  exact ⟨rfl, ho.symm⟩

/-- N2 latches HTR (R108). -/
theorem latches_after_n2 {s a : State} (hp : s.ph = .n2) (h : HostMove s a) :
    a.ph = .n3 ∧ a.high = s.high ∧ a.low = some s.htr := by
  obtain ⟨ha, h⟩ := h
  cases h.symm.trans (secondSubStepLatchesTick s ha hp)
  exact ⟨rfl, dropAgent_high s, rfl⟩

/-- N3 latches OVF again below the guard (R109). -/
theorem latches_after_n3 {s a : State} {l : Tick} (hs : Counting s) (hp : s.ph = .n3) (hl : s.low = some l)
    (h : HostMove s a) : a.low = some l ∧ a.high = if l.toNat < Config.guardTicks then s.ovf else s.high := by
  obtain ⟨ha, h⟩ := h
  obtain ⟨o, ho, _⟩ := hs.exists_ovf
  by_cases hg : l.toNat < Config.guardTicks
  · cases h.symm.trans (step_n3_reread ha hp hl ho hg)
    simp [hl, ho, hg]
  · cases h.symm.trans (step_n3_keep ha hp hl (Nat.not_lt.mp hg))
    simp [hl, hg]

theorem latched_of_occurs {r : Read} (hc : Counting r.t1) (h : r.Occurs) : Latched r := by
  obtain ⟨hp1, _, ⟨a1, h1, o1⟩, ⟨a2, h2, o2⟩, ⟨a3, h3, o3⟩⟩ := h
  have ca1 := hc.step h1.2
  obtain ⟨hc2, hle12⟩ := hc.moves (moves_of_hostMove h1 o1)
  have ca2 := hc2.step h2.2
  obtain ⟨hc3, hle23⟩ := hc2.moves (moves_of_hostMove h2 o2)
  have ca3 := hc3.step h3.2
  have k1 := sameLatches_of_otherMoves ca1 o1
  have k2 := sameLatches_of_otherMoves ca2 o2
  have k3 := sameLatches_of_otherMoves ca3 o3
  obtain ⟨ap1, ah1⟩ := latches_after_n1 hc hp1 h1
  obtain ⟨ap2, ah2, al2⟩ := latches_after_n2 (k1.ph.trans ap1) h2
  obtain ⟨al3, ah3⟩ := latches_after_n3 hc3 (k2.ph.trans ap2) (k2.low.trans al2) h3
  have high1 : r.t3.high = r.t1.ovf := by rw [k2.high, ah2, k1.high, ah1]
  refine ⟨⟨hc, hc2, hc3⟩, ⟨hle12, hle23⟩, k3.low.trans al3, ?_⟩
  rw [k3.high, ah3, high1, overflowSource, apply_ite State.ovf]

theorem Latched.counting_source {r : Read} (h : Latched r) : Counting (overflowSource r) := by
  obtain ⟨h1, _, h3⟩ := h.counting
  unfold overflowSource
  split
  · exact h3
  · exact h1

/-- A count of wraps cut to W2 bits with a tick beside it is the count of ticks cut to WX bits. -/
theorem mod_mul_add_eq (w : Nat) (l : Tick) :
    w % 2 ^ Config.w2 * 2 ^ Config.w1 + l.toNat = (w * 2 ^ Config.w1 + l.toNat) % 2 ^ Config.wx := by
  have hl := l.isLt
  simp only [Config.w1, Config.w2, Config.wx] at *
  omega

/-- The value of a read, whether or not it is correct: the wraps serviced at its source and HTR at N2. -/
theorem Latched.latchedTime_eq {r : Read} (h : Latched r) :
    latchedTime r.t4 =
      some ((servedWraps (overflowSource r) * 2 ^ Config.w1 + r.t2.htr.toNat) % 2 ^ Config.wx) := by
  obtain ⟨o, ho, hn⟩ := h.counting_source.exists_ovf
  rw [latchedTime, h.high, h.low, ho, ← mod_mul_add_eq, ← hn]

/-- Fewer than GUARD ticks after a state with HTR below GUARD there is no further wrap: GUARD is at most half of HTR's range
(WF2). -/
theorem wraps_le_of_short {s t : State} (hs : TicksSplit s) (ht : TicksSplit t) (hg : s.htr.toNat < Config.guardTicks)
    (hk : t.ticks < s.ticks + Config.guardTicks) : t.wraps ≤ s.wraps := by
  have hmax := Config.guardTicks_le
  simp only [TicksSplit, Config.w1] at *
  omega

/-- TICKS decides WRAPS, so wraps never go back either. -/
theorem wraps_le_of_ticks_le {s t : State} (hs : TicksSplit s) (ht : TicksSplit t) (h : s.ticks ≤ t.ticks) :
    s.wraps ≤ t.wraps := by
  have hl := t.htr.isLt
  simp only [TicksSplit, Config.w1] at *
  omega

/-- The heart of R116: under the premises the read's source has serviced exactly the wraps before N2. A read that takes OVF again
rests on P1 and P2, one that does not on P3 for the last wrap before N2. -/
theorem servedWraps_source_eq {r : Read} (h : Latched r) (hp : r.Premises) :
    servedWraps (overflowSource r) = r.t2.wraps := by
  obtain ⟨_, short, reread, old⟩ := hp
  obtain ⟨c1, c2, c3⟩ := h.counting
  obtain ⟨h12, h23⟩ := h.ticks
  apply Nat.le_antisymm
  · refine (servedWraps_le_wraps _).trans ?_
    unfold overflowSource
    split
    case isTrue hg =>
      unfold Read.Short at short
      exact wraps_le_of_short c2.ticks_split c3.ticks_split hg (by omega)
    case isFalse => exact wraps_le_of_ticks_le c1.ticks_split c2.ticks_split h12
  · unfold overflowSource
    split
    case isTrue => exact reread
    case isFalse hg =>
      rcases Nat.eq_zero_or_pos r.t2.wraps with hz | hpos
      · exact hz ▸ Nat.zero_le _
      · have split2 := c2.ticks_split
        unfold TicksSplit at split2
        exact old _ hpos (by omega)

theorem correct_of_premises {r : Read} (hc : Counting r.t1) (h : r.Occurs) (hp : r.Premises) : r.Correct := by
  have hl := latched_of_occurs hc h
  obtain ⟨_, c2, _⟩ := hl.counting
  rw [Read.Correct, hl.latchedTime_eq, servedWraps_source_eq hl hp, trueCount, c2.ticks_split]

/-- Settles O51: the value is the wraps serviced at the read's source and HTR at N2, and the premises make those all the wraps. -/
theorem readsAreCorrectUnderThePremises : Obligations.ReadsAreCorrectUnderThePremises :=
  fun _ hb h => correct_of_premises (counting_of_blockInv hb h.2.1) h

/-- Settles O52: both values are true counts, TICKS does not go back from the one N2 to the other, and the later count fits. -/
theorem correctReadsAreMonotone : Obligations.CorrectReadsAreMonotone := by
  intro r r' hb _ h _ hr hr' hm hfit
  obtain ⟨_, c2, _⟩ := (latched_of_occurs (counting_of_blockInv hb h.2.1) h).counting
  refine ⟨_, _, hr, hr', ?_⟩
  calc trueCount r.t2 ≤ r.t2.ticks := Nat.mod_le ..
    _ ≤ r'.t2.ticks := (c2.moves hm).2
    _ = trueCount r'.t2 := (Nat.mod_eq_of_lt hfit).symm

/-- With nothing pending or lost every wrap has been serviced. -/
theorem servedWraps_eq_wraps {s : State} (hp : s.pend = false) (hl : s.lost = 0) : servedWraps s = s.wraps := by
  simp [servedWraps, pendCount, hp, hl]

/-- Settles O53: the read is correct, and OVF gives its wraps modulo `2^W2` before the one that follows. -/
theorem readAfterAWrapCountsIt : Obligations.ReadAfterAWrapCountsIt := by
  intro r s k hb hpend hlost hk hfit hm hw h hp
  have hi : s.inited = true := by rw [← hb.ovf_inited, hk]; rfl
  have hc := ((counting_of_blockInv hb hi).moves hm).1
  have hl := latched_of_occurs hc h
  have wraps : k.toNat = s.wraps % 2 ^ Config.w2 := by
    rw [hb.wraps_counted.2 k hk, servedWraps_eq_wraps hpend hlost]
  have next : (s.wraps + 1) % 2 ^ Config.w2 = k.toNat + 1 := by
    rw [← Nat.mod_add_mod, ← wraps, Nat.mod_eq_of_lt hfit]
  rw [hl.latchedTime_eq, servedWraps_source_eq hl hp, hw, ← mod_mul_add_eq, next]

end Sys2Proof.Clock

/-! The Deadline Scheduler (41_scheduler.md): what ARM's last sub-step, ISDUE and CANCEL do to the whole state. -/

namespace Sys2Proof.Scheduler

open Sys2Proof.Machine Sys2Proof.Safety Sys2Proof.Clock

/-! ## The deadline of a read (R130, R134) -/

/-- The latches name the time of the read, so R130's formula is one sum of them modulo `2^WE`. -/
theorem durationToTicks_extendedTime (rate : Nat) (v : Seconds) (h : Overflow) (l : Tick) :
    durationToTicks rate v (extendedTime h l) =
      if v = 0 then 0 else BitVec.ofNat Config.we (h.toNat * 2 ^ Config.w1 + l.toNat + v.toNat * rate) := by
  split
  case isTrue hv => rw [hv, durationToTicks_zero]
  case isFalse hv =>
    apply BitVec.eq_of_toNat_eq
    rw [durationToTicks_of_ne hv, extendedTime_toNat, BitVec.toNat_ofNat]

/-- Settles O23: the slot exists, so it takes the deadline of the latched time. -/
theorem fourthSubStepOfArmWritesSlot : Obligations.FourthSubStepOfArmWritesSlot := by
  intro s h l v j hj hs hp ho hh hl hv hJ
  rw [step_n4 hs hp, ← durationToTicks_extendedTime]
  simp [subN4, finishArm, hh, hl, ho, hJ, hv, writeSlot_of_lt _ hj]

/-! ## ISDUE (R131, R137) -/

theorem exec_isdue {s : State} (hs : s.ph = .idle) (j : Slot) : exec (.isdue j) s = .next (compareSlot j s) :=
  whenIdle_of_idle hs (compareSlot j)

theorem isDue_eq_decide (d c : Extended) : isDue d c = decide (d ≠ 0 ∧ d.toNat ≤ c.toNat) :=
  Bool.eq_iff_iff.mpr ((isDue_iff d c).trans decide_eq_true_iff.symm)

/-- Settles O24: whether the slot exists is asked first, and then whether CUR has a value. -/
theorem isdueComparesSlotWithCur : Obligations.IsdueComparesSlotWithCur := by
  refine ⟨fun s j hj c hs hc => ?_, fun s j hj hs hc => ?_, fun s j hj hs => ?_⟩ <;> rw [exec_isdue hs, compareSlot]
  · rw [readSlot_of_lt hj, hc, withValue_some, withValue_some, isDue_eq_decide]
  · rw [readSlot_of_lt hj, hc, withValue_some, withValue_none, raiseFault_eq_recorded, faultBits]
  · rw [readSlot_of_not_lt (Nat.not_lt.mpr hj), withValue_none, raiseFault_eq_recorded, faultBits]

/-! ## CANCEL (R138) -/

theorem exec_cancel {s : State} (hs : s.ph = .idle) (j : Slot) : exec (.cancel j) s = .next (writeSlot j 0 s) :=
  whenIdle_of_idle hs (writeSlot j 0)

/-- Settles O25, by whether the slot exists. -/
theorem cancelClearsTheSlot : Obligations.CancelClearsTheSlot := by
  refine ⟨fun s j hj hs => ?_, fun s j hj hs => ?_⟩ <;> rw [exec_cancel hs]
  · rw [writeSlot_of_lt 0 hj]
  · rw [writeSlot_of_not_lt 0 (Nat.not_lt.mpr hj), raiseFault_eq_recorded, faultBits]

end Sys2Proof.Scheduler

/-! The host port (42_hostport.md): what an action of the host starts from, the reserved selectors, the command port, and the
port reads. -/

namespace Sys2Proof.HostPort

open Sys2Proof.Machine Sys2Proof.Safety Sys2Proof.Clock Sys2Proof.Encoding

/-! ## The host's step (R150, R158, R159) -/

theorem step_host_action {s : State} {x : Config.HostAct} (h : TakesAction s) (hx : nextAct s = x) :
    step s = hostAction x (taken s) := by
  rw [step_host_idle h, hx, taken]

theorem taken_idle {s : State} (h : TakesAction s) : (taken s).ph = .idle := by
  obtain ⟨_, hp, _⟩ := h
  rw [taken_ph, hp]

/-- Settles O9: from idle the action is carried out. -/
theorem setieWritesInterruptEnable : Obligations.SetieWritesInterruptEnable := by
  intro s b ha hp hh hx
  have ht : TakesAction s := ⟨ha, hp, hh⟩
  rw [step_host_action ht hx]
  exact whenIdle_of_idle (taken_idle ht) fun u => { u with ie := b }

/-- An access that does not decode records its fault. -/
theorem step_access_error {s : State} {a : Config.Access} {code : FaultCode} (h : TakesAction s)
    (hx : nextAct s = .access a) (hd : decodeAccess a = .error code) :
    step s = .next (recorded (faultBits code) (taken s)) := by
  rw [step_host_action h hx, hostAction, hd]
  exact whenIdle_of_idle (taken_idle h) (raiseFault code)

/-! ## Reserved selectors (R72, R77) -/

theorem selector_toNat_of_read {a : Config.Access} (h : a.dir = .read) : (selector a).toNat = a.port.toNat := by
  rw [selector, h, BitVec.toNat_append, ← Nat.shiftLeft_add_eq_or_of_lt a.port.isLt]
  exact Nat.zero_add a.port.toNat

theorem selector_toNat_of_write {a : Config.Access} (h : a.dir = .write) :
    (selector a).toNat = 32 + a.port.toNat := by
  rw [selector, h, BitVec.toNat_append, ← Nat.shiftLeft_add_eq_or_of_lt a.port.isLt]
  rfl

theorem decodeRead_of_reserved {p : BitVec 5} (h : p.toNat ∉ [1, 2, 3, 4, 16, 17]) :
    decodeRead Config.nj p = .error .badPort := by
  unfold decodeRead
  split
  case h_5 => -- no register's port: a slot port has one of the last two numbers
    simp only [List.mem_cons, List.not_mem_nil, or_false] at h
    exact if_neg (by simp only [Config.nj]; omega)
  all_goals simp_all

theorem decodeWrite_of_reserved {p : BitVec 5} (h : p.toNat ∉ [0, 1]) (v : BitVec Config.ws) :
    decodeWrite p v = .error .badPort := by
  unfold decodeWrite
  split <;> simp_all

theorem decodeAccess_of_reserved {a : Config.Access} (h : (selector a).toNat ∉ [32, 33, 1, 2, 3, 4, 16, 17]) :
    decodeAccess a = .error .badPort := by
  unfold decodeAccess decodeAccessWith
  cases hd : a.dir with
  | read =>
    rw [selector_toNat_of_read hd] at h
    exact decodeRead_of_reserved fun hp => h (List.mem_cons_of_mem _ (List.mem_cons_of_mem _ hp))
  | write =>
    rw [selector_toNat_of_write hd] at h
    refine decodeWrite_of_reserved ?_ a.data
    simp only [List.mem_cons, List.not_mem_nil, or_false] at h ⊢
    omega

/-- Settles O10: the access decodes to fault 7, and from idle that is recorded. -/
theorem reservedSelectorsFault : Obligations.ReservedSelectorsFault :=
  fun _ _ ha hp hh hx hsel => step_access_error ⟨ha, hp, hh⟩ hx (decodeAccess_of_reserved hsel)

/-! ## The command port (R151) -/

theorem exec_wrcmd_ok {c : CmdWord} {i : Instr} (h : decodeCmd c = .ok i) (s : State) :
    exec (.wrcmd c) s = exec i s := by
  rw [exec_command (decodeCmd_ok h), ← performCmd_eq, exec, execWrcmd, h]

theorem exec_wrcmd_error {c : CmdWord} {code : FaultCode} {s : State} (h : decodeCmd c = .error code)
    (hs : s.ph = .idle) : exec (.wrcmd c) s = .next (recorded (faultBits code) s) := by
  rw [exec, execWrcmd, h]
  exact whenIdle_of_idle hs (raiseFault code)

theorem exists_exec_command {i : Instr} (h : IsCommand i) (s : State) : ∃ t, exec i s = .next t :=
  ⟨_, exec_command h s⟩

theorem append_eq_wrapinc_iff (op : BitVec 4) (j : Slot) : op ++ j = (0x70 : CmdWord) ↔ op = 7 ∧ j = 0 := by
  refine ⟨fun h => ⟨?_, ?_⟩, fun ⟨hop, hj⟩ => by rw [hop, hj]; rfl⟩
  · exact (opField_append op j).symm.trans (congrArg opField h)
  · exact (slotField_append op j).symm.trans (congrArg slotField h)

/-- The host's copy of WRAPINC is the one word with a fault of its own (R75, R76). -/
theorem faultBits_of_decodeCmd_error {c : CmdWord} {code : FaultCode} (h : decodeCmd c = .error code) :
    faultBits code = if c = 0x70 then 2 else 1 := by
  have table := commandWordsDecodeAsTabled.1 (opField c) (slotField c)
  have word := append_eq_wrapinc_iff (opField c) (slotField c)
  rw [opField_append_slotField] at table word
  rw [decode, h] at table
  rw [if_congr word rfl rfl]
  split_ifs at table <;> cases table -- the legal words leave no case
  all_goals simp_all [faultBits]

/-- Settles O27: a legal word's command is executed as it stands, an illegal word's fault is recorded. -/
theorem wrcmdPerformsTheCommand : Obligations.WrcmdPerformsTheCommand := by
  refine ⟨fun c i s hd => ?_, fun s hs => ?_, fun c code s hd hs => ?_⟩
  · obtain ⟨t, ht⟩ := exists_exec_command (decodeCmd_ok hd) s
    exact ⟨t, (exec_wrcmd_ok hd s).trans ht, ht⟩
  · exact (exec_wrcmd_ok (i := .now) rfl s).trans (nowStartsARead s hs)
  · rw [exec_wrcmd_error hd hs, faultBits_of_decodeCmd_error hd]

/-! ## The register ports (R152 to R157) -/

/-- Settles O28, by the write taken from idle. -/
theorem wrsecWritesSeconds : Obligations.WrsecWritesSeconds :=
  fun _ v hs => whenIdle_of_idle hs (portEffect (.wrsec v))

/-- A read of an element that may have no value (R17, R72). -/
def readElement {α : Type} (x : Option α) (code : FaultCode) (ret : α → Returned) (s : State) : State :=
  withValue x code s fun v => returnValue (ret v) s

theorem readElement_of_some {α : Type} {x : Option α} {v : α} (h : x = some v) (code : FaultCode)
    (ret : α → Returned) (s : State) : readElement x code ret s = { s with reads := ret v :: s.reads } := by
  rw [h]
  rfl

theorem readElement_of_none {α : Type} {x : Option α} (h : x = none) (code : FaultCode) (ret : α → Returned)
    (s : State) : readElement x code ret s = recorded (faultBits code) s := by
  rw [h]
  rfl

theorem exec_rdsec {s : State} (hs : s.ph = .idle) :
    exec .rdsec s = .next (readElement s.sec .unwrittenRead .seconds s) :=
  whenIdle_of_idle hs (portEffect .rdsec)

theorem exec_rdcur {s : State} (hs : s.ph = .idle) :
    exec .rdcur s = .next (readElement s.cur .unwrittenRead .extended s) :=
  whenIdle_of_idle hs (portEffect .rdcur)

theorem exec_rdres {s : State} (hs : s.ph = .idle) :
    exec .rdres s = .next (readElement s.res .unwrittenRead .extended s) :=
  whenIdle_of_idle hs (portEffect .rdres)

theorem exec_rdd {s : State} (hs : s.ph = .idle) (j : Slot) :
    exec (.rdd j) s = .next (readElement (readSlot j s) .badPort .extended s) :=
  whenIdle_of_idle hs (portEffect (.rdd j))

/-- Settles O29, by whether SEC has a value. -/
theorem rdsecReturnsSeconds : Obligations.RdsecReturnsSeconds :=
  ⟨fun s v hs hv => by rw [exec_rdsec hs, readElement_of_some hv],
    fun s hs hv => by rw [exec_rdsec hs, readElement_of_none hv, faultBits]⟩

/-- Settles O30, by whether CUR has a value. -/
theorem rdcurReturnsCur : Obligations.RdcurReturnsCur :=
  ⟨fun s v hs hv => by rw [exec_rdcur hs, readElement_of_some hv],
    fun s hs hv => by rw [exec_rdcur hs, readElement_of_none hv, faultBits]⟩

/-- Settles O31, by whether RES has a value. -/
theorem rdresReturnsRes : Obligations.RdresReturnsRes :=
  ⟨fun s v hs hv => by rw [exec_rdres hs, readElement_of_some hv],
    fun s hs hv => by rw [exec_rdres hs, readElement_of_none hv, faultBits]⟩

/-- Settles O33, by whether the slot exists. -/
theorem rddReturnsTheSlot : Obligations.RddReturnsTheSlot :=
  ⟨fun s j hj hs => by rw [exec_rdd hs, readElement_of_some (readSlot_of_lt hj)],
    fun s j hj hs => by rw [exec_rdd hs, readElement_of_none (readSlot_of_not_lt (Nat.not_lt.mpr hj)), faultBits]⟩

/-! ## The STATUS view (R36, R156) -/

theorem exec_rdstat {s : State} (hs : s.ph = .idle) :
    exec .rdstat s = .next { s with reads := .status (statusWord s) :: s.reads } :=
  whenIdle_of_idle hs (portEffect .rdstat)

theorem getLsbD_append_flagBit_zero {n : Nat} (x : BitVec n) (b : Bool) : (x ++ flagBit b).getLsbD 0 = b := by
  rw [BitVec.getLsbD_append, if_pos Nat.one_pos]
  simp [flagBit]

theorem getLsbD_append_flagBit_succ {n : Nat} (x : BitVec n) (b : Bool) (i : Nat) :
    (x ++ flagBit b).getLsbD (i + 1) = x.getLsbD i := by
  simp [flagBit, BitVec.getLsbD_append]

theorem extractLsb'_append_flagBit {n : Nat} (x : BitVec n) (b : Bool) (i k : Nat) :
    (x ++ flagBit b).extractLsb' (i + 1) k = x.extractLsb' i k :=
  BitVec.extractLsb'_append_eq_of_le (Nat.le_add_left 1 i)

/-- The bit that R36 fixes at 0 is a flag that is never set. -/
theorem flagBit_false : flagBit false = 0#1 := rfl

/-- The low byte of STATUS is its flags. -/
theorem statusWord_flags (s : State) :
    (statusWord s).getLsbD 0 = s.due ∧ (statusWord s).getLsbD 1 = isBusy s ∧ (statusWord s).getLsbD 2 = s.err ∧
    (statusWord s).getLsbD 3 = s.inited ∧ (statusWord s).getLsbD 4 = s.pend ∧ (statusWord s).getLsbD 5 = s.run ∧
    (statusWord s).getLsbD 6 = s.ie ∧ (statusWord s).getLsbD 7 = false := by
  simp only [statusWord, ← flagBit_false, getLsbD_append_flagBit_succ, getLsbD_append_flagBit_zero, and_self]

/-- Above the flags STATUS holds ECODE and zeros. -/
theorem extractLsb'_statusWord (s : State) (i k : Nat) :
    (statusWord s).extractLsb' (i + 8) k = (0#4 ++ s.ecode).extractLsb' i k := by
  rw [statusWord, ← flagBit_false]
  iterate 8 rw [extractLsb'_append_flagBit]

/-- Settles O32: the flags bit by bit, BUSY among them, which idle makes 0, and the fields above them. -/
theorem rdstatReturnsStatus : Obligations.RdstatReturnsStatus := by
  intro s hs
  obtain ⟨due, busy, err, inited, pend, run, ie, zero⟩ := statusWord_flags s
  have idle := (isBusy_false_iff s).mpr hs
  refine ⟨statusWord s, exec_rdstat hs, due, busy.trans idle, err, inited, pend, run, ie, zero, ?_, ?_⟩
  · exact (extractLsb'_statusWord s 0 4).trans BitVec.extractLsb'_append_eq_right
  · exact (extractLsb'_statusWord s 4 4).trans BitVec.extractLsb'_append_eq_left

end Sys2Proof.HostPort

/-! Decoding of port accesses, and the encoder against the decoder (30_encoding.md). A selector is a bit for the direction
with the port below it (R72), so it says which half of the decoder's table an access goes through. -/

namespace Sys2Proof.Selectors

open Sys2Proof.Machine Sys2Proof.Encoding Sys2Proof.HostPort

/-! ## The two fields of a selector (R72) -/

theorem selector_of_read {a : Config.Access} (h : a.dir = .read) : selector a = 0#1 ++ a.port := by
  rw [selector, h]

theorem selector_of_write {a : Config.Access} (h : a.dir = .write) : selector a = 1#1 ++ a.port := by
  rw [selector, h]

theorem dirBit_append (b : BitVec 1) (p : BitVec 5) : (b ++ p).extractLsb' 5 1 = b :=
  BitVec.extractLsb'_append_eq_left

theorem port_append (b : BitVec 1) (p : BitVec 5) : (b ++ p).extractLsb' 0 5 = p :=
  BitVec.extractLsb'_append_eq_right

theorem append_inj {b b' : BitVec 1} {p p' : BitVec 5} (h : b ++ p = b' ++ p') : b = b' ∧ p = p' :=
  ⟨by rw [← dirBit_append b p, h, dirBit_append], by rw [← port_append b p, h, port_append]⟩

theorem decodeAccess_of_read_selector {a : Config.Access} {p : BitVec 5} (h : selector a = 0#1 ++ p) :
    decodeAccess a = decodeRead Config.nj p := by
  cases hd : a.dir with
  | read =>
    rw [selector_of_read hd] at h
    rw [decodeAccess, decodeAccessWith, hd, (append_inj h).2]
  | write =>
    rw [selector_of_write hd] at h
    exact absurd (append_inj h).1 (by decide)

theorem decodeAccess_of_write_selector {a : Config.Access} {p : BitVec 5} (h : selector a = 1#1 ++ p) :
    decodeAccess a = decodeWrite p a.data := by
  cases hd : a.dir with
  | read =>
    rw [selector_of_read hd] at h
    exact absurd (append_inj h).1 (by decide)
  | write =>
    rw [selector_of_write hd] at h
    rw [decodeAccess, decodeAccessWith, hd, (append_inj h).2]

/-! ## Slot ports (R72, R157) -/

theorem toNat_slotPort (j : Slot) : (1#1 ++ j).toNat = 16 + j.toNat := by
  rw [BitVec.toNat_append, ← Nat.shiftLeft_add_eq_or_of_lt j.isLt]
  rfl

theorem toNat_slotSelector (j : Slot) : (0b01#2 ++ j).toNat = 16 + j.toNat := by
  rw [BitVec.toNat_append, ← Nat.shiftLeft_add_eq_or_of_lt j.isLt]
  rfl

theorem slotSelector_eq (j : Slot) : 0b01#2 ++ j = 0#1 ++ (1#1 ++ j) := by
  apply BitVec.eq_of_toNat_eq
  rw [toNat_slotSelector, BitVec.toNat_append, toNat_slotPort]
  exact (Nat.zero_or _).symm

theorem decodeRead_slotPort {j : Slot} (hj : j.toNat < Config.nj) :
    decodeRead Config.nj (1#1 ++ j) = .ok (.rdd j) := by
  have hp := toNat_slotPort j
  unfold decodeRead
  split
  case h_5 => rw [if_pos (by omega), BitVec.extractLsb'_append_eq_right]
  all_goals omega -- a register's port lies below 16

/-- A slot that does not exist has a reserved port (R77). -/
theorem slotSelector_reserved {j : Slot} (hj : Config.nj ≤ j.toNat) :
    (0b01#2 ++ j).toNat ∉ [32, 33, 1, 2, 3, 4, 16, 17] := by
  have hlt := j.isLt
  simp only [toNat_slotSelector, List.mem_cons, List.not_mem_nil, or_false, Config.nj] at *
  omega

/-- A selector that is no register's and no slot's is none of the table's eight. -/
theorem unlisted_reserved {x : BitVec 6} (h : x.toNat ∉ [32, 33, 1, 2, 3, 4]) (hj : ∀ j : Slot, x ≠ 0b01#2 ++ j) :
    x.toNat ∉ [32, 33, 1, 2, 3, 4, 16, 17] := by
  have slot0 : x.toNat ≠ 16 := fun e => hj 0 (BitVec.eq_of_toNat_eq e)
  have slot1 : x.toNat ≠ 17 := fun e => hj 1 (BitVec.eq_of_toNat_eq e)
  simp_all

/-- Settles O2: a listed selector names its row of one half of the table, and the others are reserved. -/
theorem selectorsDecodeAsTabled : Obligations.SelectorsDecodeAsTabled := by
  refine fun a => ⟨decodeAccess_of_write_selector (p := 0), decodeAccess_of_write_selector (p := 1),
    decodeAccess_of_read_selector (p := 1), decodeAccess_of_read_selector (p := 2),
    decodeAccess_of_read_selector (p := 3), decodeAccess_of_read_selector (p := 4), fun j h hj => ?_,
    fun j h hj => ?_, fun h hs => ?_⟩
  · exact (decodeAccess_of_read_selector (h.trans (slotSelector_eq j))).trans (decodeRead_slotPort hj)
  · exact decodeAccess_of_reserved (h ▸ slotSelector_reserved hj)
  · exact decodeAccess_of_reserved (unlisted_reserved h hs)

/-- Settles O5: the decoder's answers on eight fixed words. -/
theorem spelledWordsDecode : Obligations.SpelledWordsDecode := by
  unfold Obligations.SpelledWordsDecode
  decide

/-! ## The encoder and the decoder -/

/-- Settles O3: a command's word goes through R76's table, an access through its port. -/
theorem decodeOfEncodeIsIdentity : Obligations.DecodeOfEncodeIsIdentity := by
  intro i hi
  obtain ⟨table, _⟩ := commandWordsDecodeAsTabled
  cases i with
  | init => exact table 1 0
  | now => exact table 2 0
  | dtt => exact table 3 0
  | arm j => exact (table 4 j).trans (if_pos ((slotOk_iff j).mp hi))
  | isdue j => exact (table 5 j).trans (if_pos ((slotOk_iff j).mp hi))
  | cancel j => exact (table 6 j).trans (if_pos ((slotOk_iff j).mp hi))
  | wrcmd c =>
    have width : (c.setWidth Config.ws).setWidth 8 = c := by
      rw [BitVec.setWidth_setWidth_of_le _ (by decide), BitVec.setWidth_eq]
    exact congrArg (Except.ok ∘ Instr.wrcmd) width
  | rdd j => exact decodeRead_slotPort ((slotOk_iff j).mp hi)
  | wrapinc | wrsec _ | rdsec | rdcur | rdres | rdstat => rfl

theorem encode_of_decode_cmd {c : CmdWord} {i : Instr} (h : decode (.cmd c) = .ok i) : encode i = .cmd c := by
  obtain ⟨table, _⟩ := commandWordsDecodeAsTabled
  rw [← opField_append_slotField c, table] at h
  rw [← opField_append_slotField c]
  split_ifs at h <;> cases h -- the legal words are left
  all_goals simp only [*]; rfl

theorem encode_of_decodeRead {p : BitVec 5} {i : Instr} (h : decodeRead Config.nj p = .ok i) :
    encode i = .port (readPort p) := by
  have hlt := p.isLt
  unfold decodeRead at h
  split at h
  case h_5 =>
    split at h <;> cases h
    have hp : 1#1 ++ p.extractLsb' 0 4 = p := by
      apply BitVec.eq_of_toNat_eq
      rw [toNat_slotPort, BitVec.extractLsb'_toNat, Nat.shiftRight_zero]
      omega
    rw [encode, hp]
  all_goals
    rename_i number
    cases h
    exact congrArg (Encoded.port ∘ readPort) (BitVec.eq_of_toNat_eq number.symm)

theorem encode_of_decodeWrite {p : BitVec 5} {v : BitVec Config.ws} {i : Instr} (h : decodeWrite p v = .ok i) :
    ∃ w, encode i = .port (writePort p w) := by
  unfold decodeWrite at h
  split at h <;> cases h
  all_goals
    rename_i number
    exact ⟨_, congrArg (fun p => Encoded.port (writePort p _)) (BitVec.eq_of_toNat_eq number.symm)⟩

theorem encode_of_decodeAccess {a : Config.Access} {i : Instr} (h : decodeAccess a = .ok i) :
    ∃ b, encode i = .port b ∧ selector b = selector a := by
  cases hd : a.dir with
  | read =>
    rw [decodeAccess_of_read_selector (selector_of_read hd)] at h
    exact ⟨_, encode_of_decodeRead h, (selector_of_read hd).symm⟩
  | write =>
    rw [decodeAccess_of_write_selector (selector_of_write hd)] at h
    obtain ⟨w, hw⟩ := encode_of_decodeWrite h
    exact ⟨_, hw, (selector_of_write hd).symm⟩

/-- Settles O4: a word is its two fields, a selector its direction and port. -/
theorem encodeOfDecodedIsTheSameWord : Obligations.EncodeOfDecodedIsTheSameWord :=
  ⟨fun _ _ => encode_of_decode_cmd, fun _ _ => encode_of_decodeAccess⟩

end Sys2Proof.Selectors

/-! The step of the whole machine: whose instruction it runs, that it always answers, and when an agent or the host
holds (00_scope.md R19, 20_memory.md R58, 42_hostport.md R150, 60_exceptions.md R171). -/

namespace Sys2Proof.Stepping

open Sys2Proof.Machine Sys2Proof.Safety Sys2Proof.HostPort

/-! ## Which instruction a step runs -/

theorem step_access {s : State} {a : Config.Access} {i : Instr} (h : TakesAction s) (hx : nextAct s = .access a)
    (hd : decodeAccess a = .ok i) : step s = exec i (taken s) := by
  rw [step_host_action h hx, hostAction, hd]

/-- A choice taken is the head of its list, or a draw where the list is empty. -/
theorem taken_eq (s : State) : taken s =
    { s with
      schedule := s.schedule.tail
      hostQueue := s.hostQueue.tail
      agentDraws := (dropAgent s).agentDraws
      actDraws := (dropAct s).actDraws } := by
  cases hs : s.schedule <;> cases hq : s.hostQueue <;> simp [taken, dropAct, dropAgent, hs, hq]

theorem dropAgent_of_cons {s : State} {x : Config.Agent} {rest : List Config.Agent} (h : s.schedule = x :: rest) :
    nextAgent s = x ∧ dropAgent s = { s with schedule := rest } := by
  simp [nextAgent, dropAgent, h]

theorem dropAct_of_cons {s : State} {x : Config.HostAct} {acts : List Config.HostAct} (h : s.hostQueue = x :: acts) :
    nextAct s = x ∧ dropAct s = { s with hostQueue := acts } := by
  simp [nextAct, dropAct, h]

/-- Settles O6: the host's access is decoded and executed, from listed choices as from free ones. -/
theorem stepRunsTheHostsAccess : Obligations.StepRunsTheHostsAccess := by
  refine ⟨fun s a i ha hp hh hx hd => step_access ⟨ha, hp, hh⟩ hx hd, taken_eq, ?_⟩
  intro s a i rest acts hs hq hp hh hd
  obtain ⟨ha, hdrop⟩ := dropAgent_of_cons hs
  obtain ⟨hx, _⟩ := dropAct_of_cons hq
  have htaken : taken s = { s with schedule := rest, hostQueue := acts } := by
    rw [taken, hdrop]
    exact (dropAct_of_cons (s := { s with schedule := rest }) hq).2
  rw [step_access ⟨ha, hp, hh⟩ hx hd, htaken]

/-- Settles O7, from a listed choice as from a free one. -/
theorem stepRunsTheInterrupt : Obligations.StepRunsTheInterrupt := by
  have runs (s : State) (h : nextAgent s = .irq) : step s = exec .wrapinc (dropAgent s) := step_irq h
  refine ⟨runs, fun s rest hs => ?_⟩
  obtain ⟨ha, hdrop⟩ := dropAgent_of_cons hs
  rw [runs s ha, hdrop]

/-! ## Agents that are not enabled (R100, R102; log 3) -/

theorem tickStep_of_not_run {s : State} (h : s.run = false) : tickStep s = s := by
  simp [tickStep, h]

theorem irqStep_of_not_enabled {s : State} (h : s.pend = false ∨ s.ie = false) : irqStep s = s := by
  rcases h with h | h <;> simp [irqStep, h]

/-- Settles O14, by the enabling conditions of TICK and IRQ. -/
theorem disabledAgentsHold : Obligations.DisabledAgentsHold :=
  ⟨fun s ha hr => by rw [step_tick ha, tickStep_of_not_run (by rwa [dropAgent_run])],
    fun s ha hd => by rw [step_irq ha, irqStep_of_not_enabled (by rwa [dropAgent_pend, dropAgent_ie])],
    fun _ hd => congrArg Host.Outcome.next (irqStep_of_not_enabled hd)⟩

/-! ## Every step answers (R171) -/

/-- The arms of `exec` that are the host's are guarded by its hold (R150). -/
theorem exec_eq_whenIdle {i : Instr} (hi : i ≠ .wrapinc) (s : State) :
    exec i s = whenIdle s (cmdEffect i) ∨ exec i s = whenIdle s (portEffect i) := by
  cases i with
  | wrapinc => exact absurd rfl hi
  | init | now | dtt | arm _ | isdue _ | cancel _ => exact .inl rfl
  | wrcmd c => exact .inr (execWrcmd_eq c s)
  | wrsec _ | rdsec | rdcur | rdres | rdstat | rdd _ => exact .inr rfl

theorem exists_exec (i : Instr) (s : State) : ∃ t, exec i s = .next t := by
  by_cases hi : i = .wrapinc
  · exact ⟨irqStep s, by rw [hi]; rfl⟩
  · rcases exec_eq_whenIdle hi s with h | h <;> exact ⟨_, h⟩

theorem exists_hostAction (x : Config.HostAct) (s : State) : ∃ t, hostAction x s = .next t := by
  cases x with
  | setie b => exact ⟨_, rfl⟩
  | halt => exact ⟨_, rfl⟩
  | access a =>
    cases hd : decodeAccess a with
    | ok i => rw [hostAction, hd]; exact exists_exec i s
    | error code => rw [hostAction, hd]; exact ⟨_, rfl⟩

/-- Settles O11, by the agent whose step it is. -/
theorem everyStepAnswersNext : Obligations.EveryStepAnswersNext := by
  intro s
  cases ha : nextAgent s with
  | tick => exact ⟨_, step_tick ha⟩
  | irq => exact ⟨_, step_irq ha⟩
  | host =>
    by_cases hp : s.ph = .idle
    · cases hh : s.halted with
      | true => exact ⟨_, step_host_halted ha hp hh⟩
      | false => rw [step_host_idle ⟨ha, hp, hh⟩]; exact exists_hostAction _ _
    · exact ⟨_, step_host_busy ha hp⟩

/-! ## The host hold (R150) -/

theorem exec_of_busy {i : Instr} {s : State} (hi : i ≠ .wrapinc) (hs : s.ph ≠ .idle) : exec i s = .next s := by
  rcases exec_eq_whenIdle hi s with h | h <;> rw [h, whenIdle_of_busy hs]

theorem not_takesAction_of_busy {s : State} (h : s.ph ≠ .idle) : ¬ TakesAction s :=
  fun ⟨_, hp, _⟩ => h hp

/-- What the HOST's own program consists of, and what it alone writes. -/
structure SameHost (s t : State) : Prop where
  hostQueue : t.hostQueue = s.hostQueue
  actDraws : t.actDraws = s.actDraws
  reads : t.reads = s.reads
  ie : t.ie = s.ie

/-- While the sequencer is busy no agent's step is an action of the host. -/
theorem sameHost_of_busy {s t : State} (hs : s.ph ≠ .idle) (h : step s = .next t) : SameHost s t := by
  have hn := not_takesAction_of_busy hs
  apply step_elim h
  case setie | halt | hostFault | wrsec | reads => exact fun ht => absurd ht hn
  case init | now | dttZero | dtt | clear | arm | isdue => exact fun _ hI => absurd hI.1 hn
  all_goals intros; constructor <;> simp

/-- Settles O34: instructions hold, and the host's step is a sub-step. -/
theorem hostHoldsWhileBusy : Obligations.HostHoldsWhileBusy := by
  refine ⟨fun _ _ => exec_of_busy, fun s t _ hs h => ?_⟩
  obtain ⟨queue, draws, reads, ie⟩ := sameHost_of_busy hs h
  exact ⟨queue, draws, reads, ie⟩

end Sys2Proof.Stepping

/-! The Deadline Scheduler at the issue of DTT and ARM, DTT's last sub-step, and the life of a job (41_scheduler.md R130 to
R135, R140). -/

namespace Sys2Proof.Deadlines

open Sys2Proof.Machine Sys2Proof.Safety Sys2Proof.Clock Sys2Proof.Scheduler

/-! ## Issue of DTT and ARM (R132, R133) -/

theorem exec_dtt {s : State} (hs : s.ph = .idle) : exec .dtt s = .next (issueDtt s) :=
  whenIdle_of_idle hs issueDtt

theorem issueDtt_of_some {s : State} {v : Seconds} (h : s.sec = some v) :
    issueDtt s = if v = 0 then { s with res := some 0 } else startRead .dtt s := by
  rw [issueDtt, h, withValue_some]

theorem issueDtt_of_none {s : State} (h : s.sec = none) : issueDtt s = recorded 6 s := by
  rw [issueDtt, h, withValue_none, raiseFault_eq_recorded, faultBits]

/-- Settles O20, by the value of SEC. -/
theorem dttIssue : Obligations.DttIssue := by
  refine ⟨fun s hs hv => ?_, fun s v hs hv hne => ?_, fun s hs hv => ?_⟩ <;> rw [exec_dtt hs]
  · rw [issueDtt_of_some hv, if_pos rfl]
  · rw [issueDtt_of_some hv, if_neg hne, startRead]
  · rw [issueDtt_of_none hv]

/-- Settles O21: RES takes the deadline of the latched time. -/
theorem fourthSubStepOfDttWritesRes : Obligations.FourthSubStepOfDttWritesRes := by
  intro s h l v hs hp ho hh hl hv
  rw [step_n4 hs hp, ← durationToTicks_extendedTime]
  simp [subN4, finishDtt, hh, hl, ho, hv]

theorem exec_arm {s : State} (hs : s.ph = .idle) (j : Slot) : exec (.arm j) s = .next (issueArm j s) :=
  whenIdle_of_idle hs (issueArm j)

theorem issueArm_of_some {s : State} {j : Slot} {v : Seconds} (hj : j.toNat < Config.nj) (h : s.sec = some v) :
    issueArm j s = if v = 0 then writeSlot j 0 s else startRead .arm { s with j := some j } := by
  rw [issueArm, withSlot, if_pos ((slotOk_iff j).mpr hj), h, withValue_some]

theorem issueArm_of_none {s : State} {j : Slot} (hj : j.toNat < Config.nj) (h : s.sec = none) :
    issueArm j s = recorded 6 s := by
  rw [issueArm, withSlot, if_pos ((slotOk_iff j).mpr hj), h, withValue_none, raiseFault_eq_recorded, faultBits]

/-- Settles O22, by the value of SEC. -/
theorem armIssue : Obligations.ArmIssue := by
  refine ⟨fun s j hj hs hv => ?_, fun s j v hj hs hv hne => ?_, fun s j hj hs hv => ?_⟩ <;> rw [exec_arm hs]
  · rw [issueArm_of_some hj hv, if_pos rfl, writeSlot_of_lt 0 hj]
  · rw [issueArm_of_some hj hv, if_neg hne, startRead]
  · rw [issueArm_of_none hj hv]

/-- Settles O26: the slot is checked before SEC is read. -/
theorem armOfMissingSlotFaults : Obligations.ArmOfMissingSlotFaults := by
  intro s j hj hs
  have missing : ¬ slotOk j = true := fun h => Nat.not_lt.mpr hj ((slotOk_iff j).mp h)
  rw [exec_arm hs, issueArm, withSlot, if_neg missing, raiseFault_eq_recorded, faultBits]

/-! ## Exact deadlines (R135) -/

/-- WF5 leaves room for the largest number of seconds after the largest time. -/
theorem deadline_fits (v : Seconds) {t : Nat} (ht : t < 2 ^ Config.wx) :
    t + v.toNat * Config.rate < 2 ^ Config.we := by
  have hv : v.toNat * Config.rate ≤ (2 ^ Config.ws - 1) * Config.rate :=
    Nat.mul_le_mul_right _ (Nat.le_sub_one_of_lt v.isLt)
  have fits := Config.deadlines_fit
  omega

theorem durationToTicks_toNat {v : Seconds} (hv : v ≠ 0) {t : Extended} (ht : t.toNat < 2 ^ Config.wx) :
    (durationToTicks Config.rate v t).toNat = t.toNat + v.toNat * Config.rate := by
  rw [durationToTicks_of_ne hv, Nat.mod_eq_of_lt (deadline_fits v ht)]

/-- A duration that is not zero is at least one tick (WF3). -/
theorem duration_pos {v : Seconds} (hv : v ≠ 0) : 0 < v.toNat * Config.rate :=
  Nat.mul_pos (Nat.pos_of_ne_zero fun h => hv (BitVec.eq_of_toNat_eq h)) Config.rate_pos

/-- Settles O49: the sum does not wrap (WF5), and what is added is not zero (WF3). -/
theorem deadlinesAreExactAndInTheFuture : Obligations.DeadlinesAreExactAndInTheFuture := by
  intro v t hv ht
  have exact_sum := durationToTicks_toNat hv ht
  have later := duration_pos hv
  refine ⟨exact_sum, by omega, fun hz => ?_⟩
  have zero : 0 = t.toNat + v.toNat * Config.rate := (congrArg BitVec.toNat hz).symm.trans exact_sum
  omega

/-! ## Jobs (R140) -/

theorem jobState_of_ne {d : Extended} (hd : d ≠ 0) (now : Nat) :
    jobState d now = if now < d.toNat then .armed else .due :=
  if_neg hd

theorem jobState_zero (now : Nat) : jobState 0 now = .inactive := if_pos rfl

/-- Settles O50: N4 writes the exact deadline, which is not the sentinel, and CANCEL writes the sentinel. -/
theorem armedJobsBecomeDueAtTheirDeadline : Obligations.ArmedJobsBecomeDueAtTheirDeadline := by
  refine ⟨fun s t h l v j hs hp ho hh hl hv hne hJ hj hstep => ?_, fun s t j hj hs hexec => ?_⟩
  · obtain ⟨exact_sum, _, ne_zero⟩ := deadlinesAreExactAndInTheFuture v (extendedTime h l) hne (extendedTime_lt h l)
    rw [extendedTime_toNat] at exact_sum
    refine ⟨durationToTicks Config.rate v (extendedTime h l), ?_, fun now _ => ?_⟩
    · cases hstep.symm.trans (fourthSubStepOfArmWritesSlot s h l v j hj hs hp ho hh hl hv hJ)
      rw [← durationToTicks_extendedTime, readSlot_of_lt hj, Vector.getElem_set_self]
    · rw [jobState_of_ne ne_zero, exact_sum]
  · cases hexec.symm.trans (exec_cancel hs j)
    exact ⟨0, readSlot_writeSlot_same 0 hj, jobState_zero⟩

end Sys2Proof.Deadlines

/-! Who writes what: for each element, a step leaves it alone or is one of its writers (10_state.md sections 2 and 3,
41_scheduler.md R139, 60_exceptions.md R171). -/

namespace Sys2Proof.Writers

open Sys2Proof.Machine Sys2Proof.Safety Sys2Proof.Selectors

/-! ## Command words as the host writes them (R71, R151) -/

/-- A command is issued by a write of its word to port CMD from idle. -/
theorem write_of_issues {s : State} {c : CmdWord} (h : Issues s c) :
    nextAgent s = .host ∧ s.ph = .idle ∧
      ∃ a, nextAct s = .access a ∧ selector a = 0b100000 ∧ a.data.setWidth 8 = c := by
  obtain ⟨⟨ha, hp, _⟩, a, hx, hd⟩ := h
  obtain ⟨b, hb, hsel⟩ := encode_of_decodeAccess hd
  cases hb
  have port : selector a = 1#1 ++ 0#5 := hsel.symm.trans (selector_of_write rfl)
  have word := hd.symm.trans ((selectorsDecodeAsTabled a).1 port)
  exact ⟨ha, hp, a, hx, port, (Instr.wrcmd.inj (Except.ok.inj word)).symm⟩

/-- A legal word is the one its command encodes to. -/
theorem word_of_decodeCmd {c w : CmdWord} {i : Instr} (h : decodeCmd c = .ok i) (he : encode i = .cmd w) : c = w :=
  Encoded.cmd.inj ((encode_of_decode_cmd h).symm.trans he)

/-! ## The fault record (R171) -/

theorem faultRecord_of_step {s t : State} (h : step s = .next t) :
    (t.err = s.err ∧ t.ecode = s.ecode) ∨
      ∃ code, t.err = true ∧ t.ecode = if s.err then s.ecode else faultBits code := by
  apply step_elim h
  case irqFault => exact fun _ _ _ _ => .inr ⟨.preInit, by simp⟩
  case subFault => exact fun _ _ code => .inr ⟨code, by simp⟩
  case hostFault => exact fun _ code => .inr ⟨code, by simp [taken]⟩
  all_goals intros; exact .inl (by simp [taken])

/-- Settles O40: a fault is recorded only over none. -/
theorem faultsAreSticky : Obligations.FaultsAreSticky := by
  intro s t h hs
  rcases faultRecord_of_step h with ⟨err, ecode⟩ | ⟨code, err, ecode⟩
  · exact ⟨err.trans hs, ecode⟩
  · exact ⟨err, by rw [ecode, if_pos hs]⟩

/-! ## INITED, RUN, HTR, OVF and IE -/

theorem run_of_step {s t : State} (h : step s = .next t) : t.run = s.run ∨ t.run = true := by
  apply step_elim h
  case init => exact fun _ _ _ _ _ => .inr rfl
  all_goals intros; exact .inl (by simp [taken])

/-- Settles O41: INIT alone writes the two bits, and it sets them. -/
theorem initedAndRunStay : Obligations.InitedAndRunStay := by
  refine fun s t h => ⟨fun hi => (Clock.inited_and_ticks_of_step hi h).1, fun hr => ?_⟩
  exact (run_of_step h).elim (·.trans hr) id

/-- The host's write of INIT's word from idle before initialisation. -/
theorem init_write {s : State} {c : CmdWord} (h : Issues s c) (hd : decodeCmd c = .ok .init) (hi : s.inited = false) :
    nextAgent s = .host ∧ s.ph = .idle ∧ s.inited = false ∧
      ∃ a, nextAct s = .access a ∧ selector a = 0b100000 ∧ a.data.setWidth 8 = 0x10#8 := by
  obtain ⟨ha, hp, a, hx, hsel, hc⟩ := write_of_issues h
  exact ⟨ha, hp, hi, a, hx, hsel, hc.trans (word_of_decodeCmd hd rfl)⟩

/-- Settles O42: of a step's updates TICK's two and INIT's name HTR. -/
theorem onlyTickAndInitWriteTickRegister : Obligations.OnlyTickAndInitWriteTickRegister := by
  refine fun s t h => Or.resolve_left ?_
  apply step_elim h
  case tick | wrap => exact fun ha hr _ => .inr (.inl ⟨ha, hr⟩)
  case init => exact fun _ hI hd hi _ => .inr (.inr (init_write hI hd hi))
  all_goals intros; exact .inl (by simp [taken])

/-- Settles O43: of a step's updates the IRQ's and INIT's name OVF. -/
theorem onlyInterruptAndInitWriteOverflow : Obligations.OnlyInterruptAndInitWriteOverflow := by
  refine fun s t h => Or.resolve_left ?_
  apply step_elim h
  case irq => exact fun ha hp hi _ _ => .inr (.inl ⟨ha, hp, hi⟩)
  case init => exact fun _ hI hd hi _ => .inr (.inr (init_write hI hd hi))
  all_goals intros; exact .inl (by simp [taken])

/-- Settles O44: of a step's updates SETIE's names IE. -/
theorem onlySetieWritesInterruptEnable : Obligations.OnlySetieWritesInterruptEnable := by
  refine fun s t h => Or.resolve_left ?_
  apply step_elim h
  case setie => exact fun ⟨ha, hp, _⟩ _ hx => .inr ⟨ha, hp, hx⟩
  all_goals intros; exact .inl (by simp [taken])

/-! ## Slots (R139) -/

theorem readSlot_of_d_eq {s t : State} (h : t.d = s.d) (k : Slot) : readSlot k t = readSlot k s := by
  rw [readSlot, readSlot, h]

theorem readSlot_set_same {s t : State} {j : Slot} {v : Extended} (hj : j.toNat < Config.nj)
    (ht : t.d = s.d.set j.toNat v hj) : readSlot j t = some v := by
  rw [readSlot_of_d_eq (s := writeSlot j v s) (by rw [ht, writeSlot_of_lt v hj]), readSlot_writeSlot_same v hj]

theorem readSlot_set_other {s t : State} {j k : Slot} {v : Extended} (hj : j.toNat < Config.nj) (hk : j ≠ k)
    (ht : t.d = s.d.set j.toNat v hj) : readSlot k t = readSlot k s := by
  rw [readSlot_of_d_eq (s := writeSlot j v s) (by rw [ht, writeSlot_of_lt v hj]), readSlot_writeSlot_other v hk]

/-- A slot that a step changes takes a deadline at N4 of its ARM, or it is cleared at the issue of its ARM or CANCEL. -/
theorem slot_of_step {s t : State} (h : step s = .next t) (k : Slot) :
    readSlot k t = readSlot k s ∨
    (nextAgent s = .host ∧ s.ph = .n4 ∧ s.op = some .arm ∧ s.j = some k) ∨
    (readSlot k t = some 0 ∧ ∃ c, Issues s c ∧ (decodeCmd c = .ok (.arm k) ∨ decodeCmd c = .ok (.cancel k))) := by
  apply step_elim h
  case n4arm =>
    intro ha hp ho high low v j hj _ _ _ hJ
    by_cases hk : j = k
    · exact .inr (.inl ⟨ha, hp, ho, hk ▸ hJ⟩)
    · exact .inl (readSlot_set_other hj hk rfl)
  case clear =>
    intro c hI j hj hd
    by_cases hk : j = k
    · subst hk
      exact .inr (.inr ⟨readSlot_set_same hj rfl, c, hI, hd.imp_left And.left⟩)
    · exact .inl (readSlot_set_other hj hk rfl)
  all_goals intros; exact .inl (readSlot_of_d_eq (by simp [taken]) k)

/-- Settles O45: the writes of a slot, with the words of ARM and CANCEL. -/
theorem onlyArmAndCancelWriteSlots : Obligations.OnlyArmAndCancelWriteSlots := by
  intro s t k h hne
  rcases (slot_of_step h k).resolve_left hne with ⟨ha, n4⟩ | ⟨_, c, hI, hd⟩
  · exact ⟨ha, .inl n4⟩
  · obtain ⟨ha, hp, a, hx, hsel, hc⟩ := write_of_issues hI
    refine ⟨ha, .inr ⟨hp, a, hx, hsel, ?_⟩⟩
    exact hd.imp (hc.trans <| word_of_decodeCmd · rfl) (hc.trans <| word_of_decodeCmd · rfl)

/-! ## CUR, RES and DUE (R28 to R30) -/

theorem cur_of_step {s t : State} (h : step s = .next t) :
    t.cur = s.cur ∨ (nextAgent s = .host ∧ s.ph = .n4 ∧ s.op = some .now) ∧
      ∃ high low, t.cur = some (extendedTime high low) := by
  apply step_elim h
  case n4now => exact fun ha hp ho high low _ _ => .inr ⟨⟨ha, hp, ho⟩, high, low, rfl⟩
  all_goals intros; exact .inl (by simp [taken])

theorem res_of_step {s t : State} (h : step s = .next t) :
    t.res = s.res ∨ (nextAgent s = .host ∧ s.ph = .n4 ∧ s.op = some .dtt) ∨
      ∃ c, Issues s c ∧ decodeCmd c = .ok .dtt := by
  apply step_elim h
  case n4dtt => exact fun ha hp ho _ _ _ _ _ _ => .inr (.inl ⟨ha, hp, ho⟩)
  case dttZero => exact fun c hI hd _ => .inr (.inr ⟨c, hI, hd⟩)
  all_goals intros; exact .inl (by simp [taken])

theorem due_of_step {s t : State} (h : step s = .next t) :
    t.due = s.due ∨ s.cur ≠ none ∧ ∃ c j, Issues s c ∧ decodeCmd c = .ok (.isdue j) := by
  apply step_elim h
  case isdue => exact fun c hI j _ hd cur hc => .inr ⟨by rw [hc]; exact Option.some_ne_none cur, c, j, hI, hd⟩
  all_goals intros; exact .inl (by simp [taken])

/-- Settles O46, element by element. -/
theorem onlyTheirCommandsWriteResults : Obligations.OnlyTheirCommandsWriteResults := by
  refine fun s t h => ⟨fun hne => ?_, fun hne => ?_, fun hne => ?_⟩
  · obtain ⟨n4, _⟩ := (cur_of_step h).resolve_left hne
    exact n4
  · rcases (res_of_step h).resolve_left hne with ⟨ha, n4⟩ | ⟨c, hI, hd⟩
    · exact ⟨ha, .inl n4⟩
    · obtain ⟨ha, hp, a, hx, hsel, hc⟩ := write_of_issues hI
      exact ⟨ha, .inr ⟨hp, a, hx, hsel, hc.trans (word_of_decodeCmd hd rfl)⟩⟩
  · obtain ⟨_, c, j, hI, hd⟩ := (due_of_step h).resolve_left hne
    obtain ⟨ha, hp, a, hx, hsel, hc⟩ := write_of_issues hI
    exact ⟨ha, hp, a, hx, hsel, j, hc.trans (word_of_decodeCmd hd rfl)⟩

end Sys2Proof.Writers

/-! The invariant of the block (10_state.md sections 2 to 5, 40_clock.md section 4, 70_reset_and_hazards.md section 1): it
holds at reset, and each of its clauses is kept by every step. -/

namespace Sys2Proof.Invariant

open Sys2Proof.Machine Sys2Proof.Safety Sys2Proof.Clock Sys2Proof.HostPort Sys2Proof.Stepping Sys2Proof.Writers

/-! ## Reset (R200) -/

/-- Settles O35, element by element. -/
theorem resetValues : Obligations.ResetValues :=
  ⟨rfl, rfl, rfl, rfl, rfl, rfl, fun _ hj => Vector.getElem_replicate hj, rfl, rfl, rfl, rfl, rfl, rfl, rfl, rfl, rfl,
    exec_rdstat rfl⟩

/-- Settles O36: at reset nothing counts and the sequencer is idle. -/
theorem invariantHoldsAtReset : Obligations.InvariantHoldsAtReset where
  run_inited := rfl
  ovf_inited := rfl
  before_init := fun _ => by unfold BeforeInit; decide
  ticks_split := rfl
  wraps_counted := ⟨le_rfl, nofun⟩
  cur_fits := nofun
  due_compared := nofun
  code_recorded := by decide
  sequencer := trivial
  halted_idle := nofun

/-! ## Before INIT (R201, R203) -/

theorem run_inited_of_step {s t : State} (hs : BlockInv s) (h : step s = .next t) : t.run = t.inited := by
  apply step_elim h
  case init => exact fun _ _ _ _ _ => rfl
  all_goals intros; simpa [taken] using hs.run_inited

theorem inited_false_of_step {s t : State} (h : step s = .next t) (ht : t.inited = false) : s.inited = false :=
  Bool.eq_false_iff.mpr fun hs => Bool.false_ne_true (ht.symm.trans ((initedAndRunStay s t h).1 hs))

/-- Before INIT no TICK and no IRQ is enabled. -/
theorem sameClock_of_beforeInit {s t : State} (hs : BlockInv s) (h : step s = .next t) (ht : t.inited = false) :
    SameClock s t := by
  have hi := inited_false_of_step h ht
  obtain ⟨_, hpend, _⟩ := hs.before_init hi
  have hrun := hs.run_inited.trans hi
  revert ht
  apply step_elim h
  case tick | wrap => exact fun _ hr => absurd (hrun.symm.trans hr) Bool.false_ne_true
  case irq => exact fun _ hp => absurd (hpend.symm.trans hp) Bool.false_ne_true
  case init => exact fun _ _ _ _ _ => nofun
  all_goals intros; constructor <;> simp [taken]

/-- Before INIT a read ends at N1 with a fault. -/
theorem phase_of_beforeInit {s t : State} (hi : s.inited = false) (hp : s.ph = .idle ∨ s.ph = .n1)
    (h : step s = .next t) : t.ph = .idle ∨ t.ph = .n1 := by
  have late {p : Phase} (hs : s.ph = p) : p = .idle ∨ p = .n1 := hs ▸ hp
  apply step_elim h
  case n1 => exact fun _ _ h => absurd (hi.symm.trans h) Bool.false_ne_true
  case n2 | n3reread | n3keep => exact fun _ hs => absurd (late hs) (by decide)
  all_goals intros; simp [taken, hp]

theorem slots_of_beforeInit {s t : State} (hp : s.ph = .idle ∨ s.ph = .n1)
    (hd : ∀ j, readSlot j s = some 0 ∨ readSlot j s = none) (h : step s = .next t) (j : Slot) :
    readSlot j t = some 0 ∨ readSlot j t = none := by
  rcases slot_of_step h j with same | ⟨_, n4, _⟩ | ⟨cleared, _⟩
  · rw [same]; exact hd j
  · rw [n4] at hp; exact absurd hp (by decide)
  · exact .inl cleared

theorem before_init_of_step {s t : State} (hs : BlockInv s) (h : step s = .next t) (ht : t.inited = false) :
    BeforeInit t := by
  have hi := inited_false_of_step h ht
  have clock := sameClock_of_beforeInit hs h ht
  obtain ⟨htr, pend, ticks, wraps, lost, slots, phase⟩ := hs.before_init hi
  exact ⟨clock.htr.trans htr, clock.pend.trans pend, clock.ticks.trans ticks, clock.wraps.trans wraps,
    clock.lost.trans lost, slots_of_beforeInit phase slots h, phase_of_beforeInit hi phase h⟩

/-! ## The clock (R23, R113, R114) -/

theorem ovf_inited_of_step {s t : State} (hs : BlockInv s) (h : step s = .next t) : t.ovf.isSome = t.inited := by
  cases clockChange_of_step h with
  | same h | count _ h | wrap _ h => rw [h.ovf, h.inited]; exact hs.ovf_inited
  | serve o _ ho h =>
    rw [h.ovf, h.inited]
    calc true = s.ovf.isSome := by rw [ho]; rfl
      _ = s.inited := hs.ovf_inited
  | init _ h => rw [h.ovf, h.inited]; rfl

/-- The first INIT is the one step to an initialised block (R105). -/
theorem zeroed_of_first_init {s t : State} (hs : s.inited = false) (ht : t.inited = true) (h : step s = .next t) :
    SameClock (zeroed s) t := by
  cases clockChange_of_step h with
  | init _ h => exact h
  | same h | count _ h | wrap _ h | serve _ _ _ h => cases ht.symm.trans (h.inited.trans hs)

theorem wrapsCounted_of_step {s t : State} (hs : BlockInv s) (h : step s = .next t) : WrapsCounted t := by
  cases hi : s.inited with
  | true => exact (Counting.step (counting_of_blockInv hs hi) h).overflow_counts.wraps_counted
  | false =>
    cases ht : t.inited with
    | true => exact ((zeroed_of_first_init hi ht h).overflowCounts_iff.mpr (overflowCounts_zeroed s)).wraps_counted
    | false =>
      have clock := sameClock_of_beforeInit hs h ht
      have counted := hs.wraps_counted
      unfold WrapsCounted servedWraps pendCount at *
      rwa [clock.lost, clock.pend, clock.wraps, clock.ovf]

/-! ## Results and faults (R30, R32, R110) -/

theorem cur_fits_of_step {s t : State} (hs : BlockInv s) (h : step s = .next t) :
    ∀ v, t.cur = some v → v.toNat < 2 ^ Config.wx := by
  intro v hv
  rcases cur_of_step h with same | ⟨_, high, low, new⟩
  · exact hs.cur_fits v (same.symm.trans hv)
  · cases hv.symm.trans new
    exact extendedTime_lt high low

theorem due_compared_of_step {s t : State} (hs : BlockInv s) (h : step s = .next t) (ht : t.due = true) :
    t.cur ≠ none := by
  rcases cur_of_step h with same | ⟨_, high, low, new⟩
  · rw [same]
    rcases due_of_step h with due | ⟨compared, _⟩
    · exact hs.due_compared (due.symm.trans ht)
    · exact compared
  · rw [new]
    exact Option.some_ne_none _

theorem faultBits_range (c : FaultCode) : (true = false ↔ faultBits c = 0) ∧ (faultBits c).toNat ≤ 7 := by
  cases c <;> decide

theorem code_recorded_of_step {s t : State} (hs : BlockInv s) (h : step s = .next t) :
    (t.err = false ↔ t.ecode = 0) ∧ t.ecode.toNat ≤ 7 := by
  have recorded := hs.code_recorded
  rcases faultRecord_of_step h with ⟨err, ecode⟩ | ⟨code, err, ecode⟩
  · rwa [err, ecode]
  · rw [err, ecode]
    split
    case isTrue faulted => rwa [← faulted]
    case isFalse => exact faultBits_range code

/-! ## The sequencer (R33 to R35, R211) -/

theorem sequencerFits_of_idle {s : State} (h : s.ph = .idle) : SequencerFits s := by
  rw [SequencerFits, h]
  trivial

theorem sequencerFits_n1_iff {s : State} (h : s.ph = .n1) : SequencerFits s ↔ SequencerFits.CommandFits s := by
  rw [SequencerFits, h]

theorem sequencerFits_n2_iff {s : State} (h : s.ph = .n2) :
    SequencerFits s ↔ SequencerFits.CommandFits s ∧ s.inited = true ∧ s.high ≠ none := by
  rw [SequencerFits, h]

theorem sequencerFits_n3_iff {s : State} (h : s.ph = .n3) :
    SequencerFits s ↔ SequencerFits.CommandFits s ∧ s.inited = true ∧ s.high ≠ none ∧ s.low ≠ none := by
  rw [SequencerFits, h]

theorem sequencerFits_n4_iff {s : State} (h : s.ph = .n4) :
    SequencerFits s ↔ SequencerFits.CommandFits s ∧ s.inited = true ∧ s.high ≠ none ∧ s.low ≠ none := by
  rw [SequencerFits, h]

theorem commandFits_congr {s t : State} (op : t.op = s.op) (sec : t.sec = s.sec) (j : t.j = s.j) :
    SequencerFits.CommandFits t ↔ SequencerFits.CommandFits s := by
  simp only [SequencerFits.CommandFits, op, sec, j]

theorem commandFits_dropAgent (s : State) :
    SequencerFits.CommandFits (dropAgent s) ↔ SequencerFits.CommandFits s :=
  commandFits_congr (dropAgent_op s) (dropAgent_sec s) (dropAgent_j s)

/-- TICK and IRQ touch nothing that the sequencer's clause reads. -/
theorem sequencerFits_congr {s t : State} (ph : t.ph = s.ph) (inited : t.inited = s.inited) (high : t.high = s.high)
    (low : t.low = s.low) (command : SequencerFits.CommandFits t ↔ SequencerFits.CommandFits s) :
    SequencerFits t ↔ SequencerFits s := by
  simp only [SequencerFits, ph, inited, high, low, command]

theorem sequencer_of_step {s t : State} (hs : BlockInv s) (h : step s = .next t) : SequencerFits t := by
  have hq := hs.sequencer
  have command := (commandFits_dropAgent s).mpr
  have sec : (taken s).sec = s.sec := by simp [taken]
  apply step_elim h
  case holds | tick | wrap | irq =>
    intros
    refine (sequencerFits_congr ?_ ?_ ?_ ?_ (commandFits_dropAgent s)).mpr hq <;> simp
  case irqFault | subFault | hostFault | n4now | n4dtt | n4arm => intros; exact sequencerFits_of_idle rfl
  case n1 =>
    intro _ hp hi o _
    rw [sequencerFits_n1_iff hp] at hq
    exact (sequencerFits_n2_iff rfl).mpr ⟨command hq, by simpa using hi, Option.some_ne_none o⟩
  case n2 =>
    intro _ hp
    obtain ⟨hc, hi, hh⟩ := (sequencerFits_n2_iff hp).mp hq
    exact (sequencerFits_n3_iff rfl).mpr ⟨command hc, by simpa using hi, by simpa using hh, Option.some_ne_none s.htr⟩
  case n3reread =>
    intro _ hp _ o _ _ _
    obtain ⟨hc, hi, _, hl⟩ := (sequencerFits_n3_iff hp).mp hq
    exact (sequencerFits_n4_iff rfl).mpr ⟨command hc, by simpa using hi, Option.some_ne_none o, by simpa using hl⟩
  case n3keep =>
    intro _ hp _ _ _
    obtain ⟨hc, hi, hh, hl⟩ := (sequencerFits_n3_iff hp).mp hq
    exact (sequencerFits_n4_iff rfl).mpr ⟨command hc, by simpa using hi, by simpa using hh, by simpa using hl⟩
  case setie | halt | wrsec | reads =>
    intro ht
    intros
    exact sequencerFits_of_idle (taken_idle ht)
  case init | dttZero | clear | isdue =>
    intro c hI
    intros
    exact sequencerFits_of_idle (taken_idle hI.1)
  case now => exact fun _ _ _ => (sequencerFits_n1_iff rfl).mpr trivial
  case dtt => exact fun _ _ _ ⟨v, hv, hne⟩ => (sequencerFits_n1_iff rfl).mpr ⟨v, sec.trans hv, hne⟩
  case arm => exact fun _ _ j hj _ ⟨v, hv, hne⟩ => (sequencerFits_n1_iff rfl).mpr ⟨⟨v, sec.trans hv, hne⟩, j, rfl, hj⟩

theorem taken_not_halted {s : State} (h : TakesAction s) : (taken s).halted ≠ true := by
  obtain ⟨_, _, hh⟩ := h
  simp [taken, hh]

/-- HALT comes only from idle, and nothing that leaves idle comes after it. -/
theorem halted_idle_of_step {s t : State} (hs : BlockInv s) (h : step s = .next t) :
    t.halted = true → t.ph = .idle := by
  have hh : (dropAgent s).halted = true → s.ph = .idle := fun h => hs.halted_idle ((dropAgent_halted s).symm.trans h)
  apply step_elim h
  case holds | tick | wrap | irq => intros; exact (dropAgent_ph s).trans (hh (by assumption))
  case irqFault | subFault | hostFault | n4now | n4dtt | n4arm => intros; rfl
  case n1 | n2 | n3reread | n3keep =>
    intro _ hp
    intros
    exact absurd (hp.symm.trans (hh (by assumption))) (by decide)
  case setie | halt | wrsec | reads => intro ht; intros; exact taken_idle ht
  case init | dttZero | clear | isdue => intro _ hI; intros; exact taken_idle hI.1
  case now | dtt | arm => intro _ hI; intros; exact absurd (by assumption) (taken_not_halted hI.1)

/-- Settles O37, clause by clause. -/
theorem everyStepKeepsTheInvariant : Obligations.EveryStepKeepsTheInvariant := fun _ _ hs h =>
  { run_inited := run_inited_of_step hs h
    ovf_inited := ovf_inited_of_step hs h
    before_init := before_init_of_step hs h
    ticks_split := ticksSplit_of_step hs.ticks_split h
    wraps_counted := wrapsCounted_of_step hs h
    cur_fits := cur_fits_of_step hs h
    due_compared := due_compared_of_step hs h
    code_recorded := code_recorded_of_step hs h
    sequencer := sequencer_of_step hs h
    halted_idle := halted_idle_of_step hs h }

end Sys2Proof.Invariant

/-! What the agents beside the host can touch, and what that means for a read: it runs its four sub-steps undisturbed (R120),
and its value is short where a wrap is not counted in time (R101, R117). -/

namespace Sys2Proof.Interleaving

open Sys2Proof.Machine Sys2Proof.Safety Sys2Proof.Clock Sys2Proof.Scheduler Sys2Proof.Deadlines
  Sys2Proof.Writers Sys2Proof.Invariant

/-! ## The shared state (R40, R103, R184) -/

/-- Before INIT nothing is pending. -/
theorem inited_of_pend {s : State} (hs : BlockInv s) (hp : s.pend = true) : s.inited = true := by
  by_contra hi
  obtain ⟨_, hn, _⟩ := hs.before_init (Bool.eq_false_iff.mpr hi)
  exact Bool.false_ne_true (hn.symm.trans hp)

theorem ovf_ne_none_of_pend {s : State} (hs : BlockInv s) (hp : s.pend = true) : s.ovf ≠ none :=
  (counting_of_blockInv hs (inited_of_pend hs hp)).overflow_counts.written

/-- The frame of TICK and IRQ: only what R40 lists as shared, and the ghost counters, may differ. -/
def SharedOnly (s t : State) : Prop :=
  t = { dropAgent s with
    htr := t.htr, pend := t.pend, ovf := t.ovf, ticks := t.ticks, wraps := t.wraps, lost := t.lost }

/-- A step that is not the host's, or that finds its program ended, is at most TICK's or the IRQ's. -/
theorem sharedOnly_of_step {s t : State} (hs : BlockInv s)
    (hh : nextAgent s = .host → s.ph = .idle ∧ s.halted = true) (h : step s = .next t) : SharedOnly s t := by
  have not_busy {p : Phase} (ha : nextAgent s = .host) (hp : s.ph = p) : p = .idle := hp.symm.trans (hh ha).1
  have not_takes : ¬ TakesAction s := by
    rintro ⟨ha, _, running⟩
    exact Bool.false_ne_true (running.symm.trans (hh ha).2)
  apply step_elim h
  case holds | tick | wrap | irq => intros; rfl
  case irqFault => exact fun _ hp _ ho => absurd ho (ovf_ne_none_of_pend hs hp)
  case subFault => exact fun ha hp => absurd (hh ha).1 hp
  case n1 | n2 | n3reread | n3keep | n4now | n4dtt | n4arm => exact fun ha hp => absurd (not_busy ha hp) (by decide)
  case setie | halt | hostFault | wrsec | reads => exact fun ht => absurd ht not_takes
  case init | now | dttZero | dtt | clear | arm | isdue => exact fun _ hI => absurd hI.1 not_takes

/-- Settles O47: the step is not the host's. -/
theorem otherAgentsTouchOnlySharedState : Obligations.OtherAgentsTouchOnlySharedState :=
  fun _ _ hs ha => sharedOnly_of_step hs fun hh => absurd hh ha

/-! ## The four sub-steps of a read (R120) -/

/-- The order of the sub-steps (R33). -/
def nextPhase : Phase → Phase
  | .n1 => .n2
  | .n2 => .n3
  | .n3 => .n4
  | .n4 => .idle
  | .idle => .idle

/-- An initialised block has gone on from the one phase to the other, with no fault and IE as it was. -/
structure Proceeds (s t : State) (p : Phase) : Prop where
  inv : BlockInv t
  inited : t.inited = true
  ph : t.ph = p
  ie : t.ie = s.ie
  err : t.err = s.err

/-- Where the sequencer fits its command, its sub-step finds every operand it reads. -/
theorem subStep_proceeds {s a : State} (hs : BlockInv s) (hi : s.inited = true) (hp : s.ph ≠ .idle)
    (h : HostMove s a) : a.ph = nextPhase s.ph ∧ a.ie = s.ie ∧ a.err = s.err := by
  obtain ⟨ha, h⟩ := h
  have hq := hs.sequencer
  obtain ⟨o, ho, _⟩ := (counting_of_blockInv hs hi).exists_ovf
  cases hph : s.ph with
  | idle => exact absurd hph hp
  | n1 =>
    cases h.symm.trans (firstSubStepLatchesOverflow.1 s o ha hph hi ho)
    simp [nextPhase]
  | n2 =>
    cases h.symm.trans (secondSubStepLatchesTick s ha hph)
    simp [nextPhase]
  | n3 =>
    obtain ⟨_, _, _, hlow⟩ := (sequencerFits_n3_iff hph).mp hq
    obtain ⟨l, hl⟩ := Option.ne_none_iff_exists'.mp hlow
    by_cases hg : l.toNat < Config.guardTicks
    · cases h.symm.trans (step_n3_reread ha hph hl ho hg)
      simp [nextPhase]
    · cases h.symm.trans (step_n3_keep ha hph hl (Nat.not_lt.mp hg))
      simp [nextPhase]
  | n4 =>
    obtain ⟨hc, _, hhigh, hlow⟩ := (sequencerFits_n4_iff hph).mp hq
    obtain ⟨high, hh⟩ := Option.ne_none_iff_exists'.mp hhigh
    obtain ⟨l, hl⟩ := Option.ne_none_iff_exists'.mp hlow
    unfold SequencerFits.CommandFits at hc
    split at hc
    case h_1 => exact hc.elim
    case h_2 op =>
      obtain ⟨v, _, _, e⟩ := fourthSubStepOfNowWritesCur s high l ha hph op hh hl
      cases h.symm.trans e
      simp [nextPhase]
    case h_3 op =>
      obtain ⟨v, hv, _⟩ := hc
      cases h.symm.trans (fourthSubStepOfDttWritesRes s high l v ha hph op hh hl hv)
      simp [nextPhase]
    case h_4 op =>
      obtain ⟨⟨v, hv, _⟩, j, hJ, hj⟩ := hc
      cases h.symm.trans (fourthSubStepOfArmWritesSlot s high l v j hj ha hph op hh hl hv hJ)
      simp [nextPhase]

theorem Proceeds.otherMove {s t u : State} {p : Phase} (ht : Proceeds s t p) (h : OtherMove t u) : Proceeds s u p := by
  have hu := otherAgentsTouchOnlySharedState t u ht.inv h.1 h.2
  exact
    { inv := everyStepKeepsTheInvariant t u ht.inv h.2
      inited := by rw [hu]; exact (dropAgent_inited t).trans ht.inited
      ph := by rw [hu]; exact (dropAgent_ph t).trans ht.ph
      ie := by rw [hu]; exact (dropAgent_ie t).trans ht.ie
      err := by rw [hu]; exact (dropAgent_err t).trans ht.err }

theorem Proceeds.otherMoves {s t u : State} {p : Phase} (ht : Proceeds s t p) (h : OtherMoves t u) :
    Proceeds s u p := by
  induction h with
  | refl => exact ht
  | tail _ m ih => exact ih.otherMove m

theorem Proceeds.hostMove {s t u : State} {p : Phase} (ht : Proceeds s t p) (hp : p ≠ .idle) (h : HostMove t u) :
    Proceeds s u (nextPhase p) := by
  obtain ⟨ph, ie, err⟩ := subStep_proceeds ht.inv ht.inited (ht.ph ▸ hp) h
  exact
    { inv := everyStepKeepsTheInvariant t u ht.inv h.2
      inited := (initedAndRunStay t u h.2).1 ht.inited
      ph := ht.ph ▸ ph
      ie := ie.trans ht.ie
      err := err.trans ht.err }

/-- Settles O48: each sub-step proceeds, and the steps of TICK and IRQ after it leave the sequencer where it is. -/
theorem readsCompleteInFourHostSteps : Obligations.ReadsCompleteInFourHostSteps := by
  intro s1 a1 s2 a2 s3 a3 s4 a4 hs hp hi h1 o1 h2 o2 h3 o3 h4
  have p1 : Proceeds s1 s1 .n1 := ⟨hs, hi, hp, rfl, rfl⟩
  have p2 : Proceeds s1 s2 .n2 := (p1.hostMove (by decide) h1).otherMoves o1
  have p3 : Proceeds s1 s3 .n3 := (p2.hostMove (by decide) h2).otherMoves o2
  have p4 : Proceeds s1 s4 .n4 := (p3.hostMove (by decide) h3).otherMoves o3
  have p5 : Proceeds s1 a4 .idle := p4.hostMove (by decide) h4
  exact ⟨p2.ph, p3.ph, p4.ph, p5.ph, p5.ie, p5.err⟩

/-! ## Reads that are short (R101, R117) -/

/-- A read whose source has serviced all wraps before N2 but `n` is short by `n` wraps. -/
theorem latchedTime_of_missing {r : Read} (h : Latched r) {n : Nat} (hn : n ≤ r.t2.wraps)
    (hw : servedWraps (overflowSource r) = r.t2.wraps - n) :
    latchedTime r.t4 = some ((r.t2.ticks - n * 2 ^ Config.w1) % 2 ^ Config.wx) := by
  obtain ⟨_, c2, _⟩ := h.counting
  have ticks : r.t2.ticks - n * 2 ^ Config.w1 = (r.t2.wraps - n) * 2 ^ Config.w1 + r.t2.htr.toNat := by
    rw [c2.ticks_split, Nat.sub_mul, Nat.sub_add_comm (Nat.mul_le_mul_right _ hn)]
  rw [h.latchedTime_eq, hw, ticks]

/-- Settles O54: N3 reads OVF again, and of all wraps the pending one is missing there. -/
theorem unservicedWrapGivesATornRead : Obligations.UnservicedWrapGivesATornRead := by
  intro r hb h hlost hw hp hg
  have hl := latched_of_occurs (counting_of_blockInv hb h.2.1) h
  obtain ⟨_, _, c3⟩ := hl.counting
  obtain ⟨counted, _⟩ := c3.overflow_counts.wraps_counted
  have lost : r.t3.lost = 0 := hlost
  have pending : pendCount r.t3 = 1 := if_pos hp
  have short := latchedTime_of_missing hl (n := 1) (by omega) (by
    rw [overflowSource, if_pos hg, servedWraps, lost, pending, hw, Nat.sub_zero])
  rwa [Nat.one_mul] at short

theorem lost_le_of_step {s t : State} (hs : Counting s) (h : step s = .next t) : s.lost ≤ t.lost := by
  cases clockChange_of_step h with
  | same h | count _ h | serve _ _ _ h => exact h.lost.ge
  | wrap _ h => exact h.lost ▸ Nat.le_add_right ..
  | init hi _ => exact absurd (hi.symm.trans hs.inited) Bool.false_ne_true

theorem lost_le_of_moves {s t : State} (hs : Counting s) (h : Moves s t) : s.lost ≤ t.lost := by
  induction h with
  | refl => exact le_rfl
  | tail hm m ih => exact ih.trans (lost_le_of_step (hs.moves hm).1 m)

/-- Wraps lost before a read's window are lost before N2 and before N3. -/
theorem lost_in_window {r : Read} (hc : Counting r.t1) (h : r.Occurs) (hlost : r.t3.lost = r.t1.lost) :
    r.t2.lost = r.t1.lost ∧ r.t2.lost = r.t3.lost := by
  obtain ⟨_, _, ⟨_, h1, o1⟩, ⟨_, h2, o2⟩, _⟩ := h
  have m12 := moves_of_hostMove h1 o1
  have le12 := lost_le_of_moves hc m12
  have le23 := lost_le_of_moves (hc.moves m12).1 (moves_of_hostMove h2 o2)
  omega

/-- What has been serviced is at most what was not lost. -/
theorem servedWraps_le (s : State) : servedWraps s ≤ s.wraps - s.lost := Nat.sub_le ..

/-- Settles O55: as in a correct read, the source has serviced all wraps before N2 but the lost ones. -/
theorem eachLostWrapShortensReads : Obligations.EachLostWrapShortensReads := by
  intro r hb h hlost short reread old
  have hc := counting_of_blockInv hb h.2.1
  have hl := latched_of_occurs hc h
  obtain ⟨c1, c2, c3⟩ := hl.counting
  obtain ⟨h12, h23⟩ := hl.ticks
  obtain ⟨lost1, lost3⟩ := lost_in_window hc h hlost
  obtain ⟨counted, _⟩ := c2.overflow_counts.wraps_counted
  refine latchedTime_of_missing hl (by omega) (Nat.le_antisymm ?_ ?_)
  · refine (servedWraps_le _).trans ?_
    unfold overflowSource
    split
    case isTrue hg =>
      have wraps := wraps_le_of_short c2.ticks_split c3.ticks_split hg (by unfold Read.Short at short; omega)
      omega
    case isFalse =>
      have wraps := wraps_le_of_ticks_le c1.ticks_split c2.ticks_split h12
      omega
  · unfold overflowSource
    split
    case isTrue => exact reread
    case isFalse hg =>
      rcases Nat.eq_zero_or_pos r.t2.wraps with hz | hpos
      · rw [hz, Nat.zero_sub]; exact Nat.zero_le _
      · have split2 := c2.ticks_split
        unfold TicksSplit at split2
        exact old _ hpos (by omega)

end Sys2Proof.Interleaving

/-! The end of a run (70_reset_and_hazards.md R211; log 22) and infinite runs under weak fairness (R210). -/

namespace Sys2Proof.Runs

open Sys2Proof.Machine Sys2Proof.Safety Sys2Proof.Clock Sys2Proof.Deadlines Sys2Proof.HostPort Sys2Proof.Stepping
  Sys2Proof.Writers Sys2Proof.Interleaving

/-! ## HALT -/

/-- Settles O56: HALT is carried out from idle, and its host takes no further action. -/
theorem haltEndsTheHostsProgram : Obligations.HaltEndsTheHostsProgram := by
  refine ⟨fun s ha hp hh hx => ?_, fun s ha hp hh => step_host_halted ha hp hh, fun s t hs hh => ?_⟩
  · have ht : TakesAction s := ⟨ha, hp, hh⟩
    rw [step_host_action ht hx]
    exact whenIdle_of_idle (taken_idle ht) fun u => { u with halted := true }
  · exact sharedOnly_of_step hs fun _ => ⟨hs.halted_idle hh, hh⟩

theorem halted_of_step {s t : State} (h : step s = .next t) : t.halted = s.halted ∨ t.ph = .idle := by
  apply step_elim h
  case halt => exact fun ht _ => .inr (taken_idle ht)
  all_goals intros; exact .inl (by simp [taken])

theorem end_of_runEnds {s t : State} (h : RunEnds s t) : t.halted = true ∧ t.ph = .idle := by
  obtain ⟨u, _, ⟨_, hstep⟩, before, after⟩ := h
  refine ⟨after, (halted_of_step hstep).resolve_left fun same => ?_⟩
  exact Bool.false_ne_true (before.symm.trans (same.symm.trans after))

theorem err_of_moves {s t : State} (hs : s.err = true) (h : Moves s t) : t.err = true := by
  induction h with
  | refl => exact hs
  | tail _ m ih => exact (faultsAreSticky _ _ m ih).1

theorem moves_of_runEnds {s t : State} (h : RunEnds s t) : Moves s t := by
  obtain ⟨_, hm, ⟨_, hstep⟩, _⟩ := h
  exact hm.tail hstep

theorem runEnds_of_moves {s u t : State} (hm : Moves s u) (h : RunEnds u t) : RunEnds s t := by
  obtain ⟨w, hw, halt⟩ := h
  exact ⟨w, hm.trans hw, halt⟩

/-- Settles O57: a fault on the way is still recorded at the end, which is no good end then. -/
theorem faultedRunsSatisfyNoPostcondition : Obligations.FaultedRunsSatisfyNoPostcondition := by
  refine ⟨fun s t h => ?_, fun s u t post hm hu h => ?_⟩
  · obtain ⟨hh, hp⟩ := end_of_runEnds h
    exact ⟨hh, hp, fun ⟨_, _, hf⟩ => Bool.eq_false_iff.mpr hf, fun he => ⟨hh, hp, Bool.eq_false_iff.mp he⟩⟩
  · have fails : ¬ Satisfies t post := fun ⟨⟨_, _, hf⟩, _⟩ => hf (err_of_moves hu (moves_of_runEnds h))
    exact ⟨fails, fun he => fails (he t (runEnds_of_moves hm h))⟩

/-! ## Commands complete (R120, R210) -/

/-- How many sub-steps are still to come. -/
def subStepsLeft : Phase → Nat
  | .n1 => 4
  | .n2 => 3
  | .n3 => 2
  | .n4 => 1
  | .idle => 0

theorem subStepsLeft_pos {p : Phase} (h : p ≠ .idle) : 0 < subStepsLeft p := by
  cases p with
  | idle => exact absurd rfl h
  | n1 | n2 | n3 | n4 => decide

/-- While a command is in flight no step adds a sub-step, and each of the host's takes one away. -/
theorem subStepsLeft_of_step {s t : State} (hs : s.ph ≠ .idle) (h : step s = .next t) :
    subStepsLeft t.ph ≤ subStepsLeft s.ph ∧ (nextAgent s = .host → subStepsLeft t.ph < subStepsLeft s.ph) := by
  have pos := subStepsLeft_pos hs
  have hn := not_takesAction_of_busy hs
  apply step_elim h
  case holds => exact fun hh => ⟨by simp, fun ha => absurd (hh.resolve_left (not_not.mpr ha)).1 hs⟩
  case tick | wrap | irq =>
    intro ha
    intros
    exact ⟨by simp, fun hh => by simp [hh] at ha⟩
  case irqFault | subFault => intros; exact ⟨Nat.zero_le _, fun _ => pos⟩
  case n1 | n2 | n3reread | n3keep | n4now | n4dtt | n4arm =>
    intro _ hp
    intros
    simp [hp, subStepsLeft]
  case setie | halt | hostFault | wrsec | reads => exact fun ht => absurd ht hn
  case init | now | dttZero | dtt | clear | arm | isdue => exact fun _ hI => absurd hI.1 hn

theorem subStepsLeft_succ (r : InfiniteRun) {m : Nat} (busy : (r.state m).ph ≠ .idle) :
    subStepsLeft (r.state (m + 1)).ph ≤ subStepsLeft (r.state m).ph ∧
      ((r.choice m).agent = .host → subStepsLeft (r.state (m + 1)).ph < subStepsLeft (r.state m).ph) :=
  subStepsLeft_of_step (s := offered (r.choice m) (r.state m)) busy (r.moves m)

theorem subStepsLeft_antitone {r : InfiniteRun} {n m k : Nat} (busy : ∀ m, n ≤ m → (r.state m).ph ≠ .idle)
    (hm : n ≤ m) (hk : m ≤ k) : subStepsLeft (r.state k).ph ≤ subStepsLeft (r.state m).ph := by
  induction hk with
  | refl => exact le_rfl
  | step hk ih => exact (subStepsLeft_succ r (busy _ (hm.trans hk))).1.trans ih

/-- In a fair run that stays busy, a sub-step is taken again and again. -/
theorem exists_subStepsLeft_lt {r : InfiniteRun} (hf : Fair r) {n m : Nat} (busy : ∀ m, n ≤ m → (r.state m).ph ≠ .idle)
    (hm : n ≤ m) : ∃ k, n ≤ k ∧ subStepsLeft (r.state k).ph < subStepsLeft (r.state m).ph := by
  obtain ⟨k, hk, ha⟩ := hf.subSteps m fun k hk => busy k (hm.trans hk)
  have fewer := (subStepsLeft_succ r (busy k (hm.trans hk))).2 ha
  exact ⟨k + 1, (hm.trans hk).trans k.le_succ, fewer.trans_le (subStepsLeft_antitone busy hm hk)⟩

theorem exists_idle {r : InfiniteRun} (hf : Fair r) (n : Nat) : ∃ m, n ≤ m ∧ (r.state m).ph = .idle := by
  by_contra hn
  have busy (m : Nat) (hm : n ≤ m) : (r.state m).ph ≠ .idle := fun h => hn ⟨m, hm, h⟩
  have never (left : Nat) : ∀ m, n ≤ m → subStepsLeft (r.state m).ph ≠ left := by
    induction left using Nat.strong_induction_on with
    | h left ih =>
      intro m hm he
      obtain ⟨k, hk, hlt⟩ := exists_subStepsLeft_lt hf busy hm
      exact ih _ (he ▸ hlt) k hk rfl
  exact never _ n le_rfl rfl

/-! ## Pending wraps are serviced (R181, R210) -/

theorem sameClock_offered (c : Choice) (s : State) : SameClock s (offered c s) := by
  constructor <;> rfl

theorem counting_offered {s : State} (hs : Counting s) (c : Choice) : Counting (offered c s) where
  inited := hs.inited
  ticks_split := (sameClock_offered c s).ticksSplit_iff.mpr hs.ticks_split
  overflow_counts := (sameClock_offered c s).overflowCounts_iff.mpr hs.overflow_counts

theorem counting_run {r : InfiniteRun} {n m : Nat} (hn : Counting (r.state n)) (hm : n ≤ m) : Counting (r.state m) := by
  induction hm with
  | refl => exact hn
  | step _ ih => exact (counting_offered ih _).step (r.moves _)

/-- An IRQ step with interrupts enabled leaves nothing pending. -/
theorem pend_false_of_irq {s t : State} (hs : Counting s) (ha : nextAgent s = .irq) (hi : s.ie = true)
    (h : step s = .next t) : t.pend = false := by
  obtain ⟨o, ho, _⟩ := hs.exists_ovf
  cases h.symm.trans (step_irq ha)
  cases hp : s.pend <;> simp [irqStep, hp, hi, ho]

theorem exists_serviced {r : InfiniteRun} (hf : Fair r) {n : Nat} (hn : Counting (r.state n))
    (hi : ∀ m, n ≤ m → (r.state m).ie = true) : ∃ m, n ≤ m ∧ (r.state m).pend = false := by
  by_contra hne
  have pending (m : Nat) (hm : n ≤ m) : (r.state m).pend = true :=
    Bool.eq_true_of_not_eq_false fun hp => hne ⟨m, hm, hp⟩
  obtain ⟨m, hm, ha⟩ := hf.irq n fun m hm => ⟨pending m hm, hi m hm⟩
  exact hne ⟨m + 1, hm.trans m.le_succ,
    pend_false_of_irq (counting_offered (counting_run hn hm) _) ha (hi m hm) (r.moves m)⟩

/-- Settles O58: the sub-steps left run out, and the IRQ agent's step services the wrap. -/
theorem fairRunsCompleteCommandsAndServiceWraps : Obligations.FairRunsCompleteCommandsAndServiceWraps :=
  fun _ hf => ⟨fun n _ => exists_idle hf n, fun _ hs hp hi =>
    exists_serviced hf (counting_of_blockInv hs (inited_of_pend hs hp)) hi⟩

/-! ## Every count is reached (R210) -/

theorem run_of_run {r : InfiniteRun} {n m : Nat} (hn : (r.state n).run = true) (hm : n ≤ m) :
    (r.state m).run = true := by
  induction hm with
  | refl => exact hn
  | step _ ih => exact (initedAndRunStay _ _ (r.moves _)).2 ih

theorem ticks_of_tick {s t : State} (ha : nextAgent s = .tick) (hr : s.run = true) (h : step s = .next t) :
    t.ticks = s.ticks + 1 := by
  cases h.symm.trans (step_tick ha)
  rcases tickStep_cases (dropAgent s) with ⟨hn, _⟩ | ⟨_, _, e⟩ | ⟨_, _, e⟩
  · exact absurd (hn.symm.trans ((dropAgent_run s).trans hr)) Bool.false_ne_true
  all_goals rw [e]; exact congrArg (· + 1) (dropAgent_ticks s)

/-- No step counts more than one tick. -/
theorem ticks_le_of_step {s t : State} (h : step s = .next t) : t.ticks ≤ s.ticks + 1 := by
  cases clockChange_of_step h with
  | same h | serve _ _ _ h => exact h.ticks.le.trans (Nat.le_succ _)
  | count _ h | wrap _ h => exact h.ticks.le
  | init _ h => exact h.ticks.le.trans (Nat.zero_le _)

theorem ticks_le_succ (r : InfiniteRun) (m : Nat) : (r.state (m + 1)).ticks ≤ (r.state m).ticks + 1 :=
  ticks_le_of_step (s := offered (r.choice m) (r.state m)) (r.moves m)

theorem ticks_mono {r : InfiniteRun} {n m : Nat} (hn : Counting (r.state n)) (hm : n ≤ m) :
    (r.state n).ticks ≤ (r.state m).ticks := by
  induction hm with
  | refl => exact le_rfl
  | @step i hm ih =>
    have hc := counting_offered (counting_run hn hm) (r.choice i)
    exact ih.trans (inited_and_ticks_of_step hc.inited (r.moves _)).2

/-- A fair run that counts ticks beyond every number. -/
theorem exists_le_ticks {r : InfiniteRun} (hf : Fair r) {n : Nat} (hn : Counting (r.state n))
    (hr : (r.state n).run = true) (k : Nat) : ∃ m, n ≤ m ∧ k ≤ (r.state m).ticks := by
  induction k with
  | zero => exact ⟨n, le_rfl, Nat.zero_le _⟩
  | succ k ih =>
    obtain ⟨m, hm, hk⟩ := ih
    obtain ⟨i, hi, ha⟩ := hf.tick m fun i hi => run_of_run hr (hm.trans hi)
    have tick : (r.state (i + 1)).ticks = (r.state i).ticks + 1 :=
      ticks_of_tick (s := offered (r.choice i) (r.state i)) ha (run_of_run hr (hm.trans hi)) (r.moves i)
    have later := ticks_mono (counting_run hn hm) hi
    exact ⟨i + 1, (hm.trans hi).trans i.le_succ, by omega⟩

/-- A sequence that rises by at most one at a time leaves no value out. -/
theorem exists_eq_of_rises {f : Nat → Nat} (hf : ∀ i, f (i + 1) ≤ f i + 1) {n m k : Nat} (hn : n ≤ m) (hk : f n ≤ k)
    (hm : k ≤ f m) : ∃ i, n ≤ i ∧ f i = k := by
  induction hn with
  | refl => exact ⟨n, le_rfl, le_antisymm hk hm⟩
  | @step m hn ih =>
    rcases Nat.le_or_eq_of_le_succ (hm.trans (hf m)) with hle | heq
    · exact ih hle
    · exact ⟨m + 1, Nat.le_succ_of_le hn, le_antisymm ((hf m).trans heq.ge) hm⟩

theorem exists_ticks_eq {r : InfiniteRun} (hf : Fair r) {n k : Nat} (hn : Counting (r.state n))
    (hr : (r.state n).run = true) (hk : (r.state n).ticks ≤ k) : ∃ m, n ≤ m ∧ (r.state m).ticks = k := by
  obtain ⟨m, hm, hle⟩ := exists_le_ticks hf hn hr k
  exact exists_eq_of_rises (f := fun i => (r.state i).ticks) (ticks_le_succ r) hm hk hle

theorem jobState_armed_iff {d : Extended} {now : Nat} : jobState d now = .armed ↔ d ≠ 0 ∧ now < d.toNat := by
  unfold jobState
  split_ifs <;> simp_all

/-- The number of ticks at which the true count comes to a later value that fits WX bits. -/
theorem add_sub_mod_eq {t d : Nat} (hd : d < 2 ^ Config.wx) (ht : t % 2 ^ Config.wx < d) :
    (t + (d - t % 2 ^ Config.wx)) % 2 ^ Config.wx = d := by
  simp only [Config.wx, Config.w1, Config.w2] at *
  omega

/-- Settles O59: counts are reached one by one, the one at which the true count is the deadline among them. -/
theorem fairRunsReachEveryCount : Obligations.FairRunsReachEveryCount := by
  intro r hf n hs hr
  have hn := counting_of_blockInv hs (hs.run_inited.symm.trans hr)
  refine ⟨fun k hk => exists_ticks_eq hf hn hr hk, fun d hd harmed => ?_⟩
  obtain ⟨hne, hlt⟩ := jobState_armed_iff.mp harmed
  obtain ⟨m, hm, ticks⟩ := exists_ticks_eq hf hn hr (Nat.le_add_right _ (d.toNat - trueCount (r.state n)))
  have due : trueCount (r.state m) = d.toNat := by
    rw [trueCount, ticks]
    exact add_sub_mod_eq hd hlt
  exact ⟨m, hm, by rw [jobState_of_ne hne, due, if_neg (Nat.lt_irrefl _)]⟩

end Sys2Proof.Runs
